-- ==== Sys2Proof/Word.lean ====
section
/-! DEFINITION. The word types of FRS: the byte, which is the unit of transfer, of storage, of scanning and of
counting (20_memory.md R31), and the 16-bit marker (30_encoding.md R54). -/

namespace Sys2Proof

/-- A byte: an 8-bit unsigned value (00_scope.md R6). -/
abbrev Byte := BitVec 8

/-- A 16-bit unsigned value, the width of the marker field (00_scope.md R4). -/
abbrev Half := BitVec 16

end Sys2Proof
end

