-- ==== Sys2Proof/Config.lean ====
section
/-! DEFINITION. The parameters of FRS, one configuration record (00_scope.md R4), and the four payload codecs the
spec leaves uninterpreted (00_scope.md R4, 92_eei_decisions.md D20 and D29) but for the inverse of 42_dispatcher.md
R103. -/

namespace Sys2Proof

/-- BYTE_ORDER of every multi-byte integer on the wire (00_scope.md R4, 20_memory.md R32). -/
inductive ByteOrder where
  | big
  | little
  deriving DecidableEq, Repr

/-- The implementation parameters of 00_scope.md R4. They are fixed before reset and nothing FRS does or receives can
change them (20_memory.md R45). -/
structure Config where
  /-- `MARKER`, the marker constant. -/
  marker : Half
  /-- `TB`, bytes of `typeTag` on the wire. -/
  tb : Nat
  /-- `SB`, bytes of `status` on the wire. -/
  sb : Nat
  /-- `LB`, bytes of `length` on the wire. -/
  lb : Nat
  /-- `BYTE_ORDER`. -/
  order : ByteOrder
  /-- `TAG_GET_TIME`. -/
  tagGetTime : Nat
  /-- `TAG_GET_SIZE`. -/
  tagGetSize : Nat
  /-- `TAG_GET_STAT`. -/
  tagGetStat : Nat
  /-- `TAG_SET_DATA`. -/
  tagSetData : Nat
  /-- `TAG_CLEAR_DATA`. -/
  tagClearData : Nat
  /-- `BUF_CAP`, the capacity of the input buffer in bytes; `none` is `INF`. -/
  bufCap : Option Nat
  deriving DecidableEq, Repr

/-- The default column of 00_scope.md R4. No definition and no statement of the model rests on it but the reset state
of the one machine the host runs and the tests (assumption 1). -/
def Config.default : Config where
  marker := 0xAB12
  tb := 2
  sb := 1
  lb := 4
  order := .big
  tagGetTime := 100
  tagGetSize := 101
  tagGetStat := 102
  tagSetData := 200
  tagClearData := 201
  bufCap := none

/-- The five tags, in the order of 00_scope.md R4. -/
def Config.tags (c : Config) : List Nat :=
  [c.tagGetTime, c.tagGetSize, c.tagGetStat, c.tagSetData, c.tagClearData]

/-- A pair of text codecs: `enc` from a text to the bytes of its "length-prefixed text" wire form, `dec` back, and the
law that `dec` is the inverse of `enc` (42_dispatcher.md R103). Of bytes that are no encoded text nothing is said. The
default values only show that such a pair exists. -/
structure TextCodec where
  /-- A text to its wire form. -/
  enc : List Byte → List Byte := id
  /-- A wire form to its text. -/
  dec : List Byte → List Byte := id
  /-- `dec` is the inverse of `enc`. -/
  dec_enc : ∀ t, dec (enc t) = t := by intro t; rfl
  deriving Inhabited

/-- The text codecs of the machine. OPEN in the spec (40_header_codec.md R75, D20, D29): uninterpreted but for the law,
assumption 10. -/
opaque Config.textCodec : TextCodec

/-- `encText` (40_header_codec.md R75). -/
def Config.encText (t : List Byte) : List Byte := Config.textCodec.enc t

/-- `decText`, the inverse of `encText` (42_dispatcher.md R103). -/
def Config.decText (p : List Byte) : List Byte := Config.textCodec.dec p

/-- `decTime`, the meaning of a GET_TIME payload (42_dispatcher.md R100). OPEN: uninterpreted, assumption 10. -/
opaque Config.decTime : List Byte → List Byte

/-- `decStat`, the meaning of a Server Statistics record (42_dispatcher.md R102). OPEN: uninterpreted,
assumption 10. -/
opaque Config.decStat : List Byte → List Byte

end Sys2Proof
end

