-- ==== Sys2Proof/Syntax.lean ====
section
/-! DEFINITION. The operations of FRS as syntax: one constructor for every row of spec/opcode_table.json, and the data
their operands are made of (00_scope.md R1, R6). -/

namespace Sys2Proof

/-- A header record `{marker, typeTag, status, length}` (00_scope.md R6). The last three fields have the parametric
widths `TW`, `SW`, `LW`; they are naturals, and `Header.wellTyped` (WellFormed.lean) is their range. -/
structure Header where
  marker : Half
  typeTag : Nat
  status : Nat
  length : Nat
  deriving DecidableEq, Repr

/-- The three named states of the reassembler (10_state.md R14). -/
inductive Mode where
  | awaitHeader
  | resync
  | awaitPayload
  deriving DecidableEq, Repr

/-- The operations of FRS. FRS has no instruction set in the processor sense: its instructions are the frames it
parses off the wire and the block's own operations (00_scope.md R1). -/
inductive Instr where
  /-- Row GET_TIME: a complete frame of kind GET_TIME (42_dispatcher.md R100). -/
  | getTime (status length : Nat)
  /-- Row GET_SIZE: a complete frame of kind GET_SIZE (42_dispatcher.md R101). -/
  | getSize (status length : Nat)
  /-- Row GET_STAT: a complete frame of kind GET_STAT (42_dispatcher.md R102). -/
  | getStat (status length : Nat)
  /-- Row SET_DATA: a complete frame of kind SET_DATA (42_dispatcher.md R103). -/
  | setData (status length : Nat)
  /-- Row CLEAR_DATA: a complete frame of kind CLEAR_DATA (42_dispatcher.md R104). -/
  | clearData (status length : Nat)
  /-- Row UNKNOWN_KIND: a complete frame whose nonzero tag is none of the five (42_dispatcher.md R105). -/
  | unknownKind (typeTag status length : Nat)
  /-- Row LEN_MISMATCH: a complete frame whose length does not fit its kind's fixed size (42_dispatcher.md R106). -/
  | lenMismatch (typeTag status length : Nat)
  /-- Row NULL_HEADER: a header whose tag is the reserved 0 (30_encoding.md R56, 41_reassembler.md R81). -/
  | nullHeader (status length : Nat)
  /-- Row HDR_ACCEPT (41_reassembler.md R80). -/
  | hdrAccept (typeTag status length : Nat)
  /-- Row HDR_NULL (41_reassembler.md R81). -/
  | hdrNull (status length : Nat)
  /-- Row HDR_MISMATCH (41_reassembler.md R82); the operands are `buf[0]` and `buf[1]`. -/
  | hdrMismatch (b0 b1 : Byte)
  /-- Row RESYNC_SKIP (41_reassembler.md R83); the operands are `buf[0]` and `buf[1]`. -/
  | resyncSkip (b0 b1 : Byte)
  /-- Row RESYNC_FOUND (41_reassembler.md R84). -/
  | resyncFound
  /-- Row RESYNC_END (41_reassembler.md R85). -/
  | resyncEnd
  /-- Row DISPATCH (41_reassembler.md R86). -/
  | dispatch
  /-- Row HDR_WAIT (41_reassembler.md R87). -/
  | hdrWait
  /-- Row PAYLOAD_WAIT (41_reassembler.md R88). -/
  | payloadWait
  /-- Row DELIVER: one delivery of the chunk (41_reassembler.md R91). -/
  | deliver (chunk : List Byte)
  /-- Row CONNECTED (60_exceptions.md R125). -/
  | connected
  /-- Row CONN_ERROR (60_exceptions.md R128). -/
  | connError
  /-- Row DISCONNECTED (60_exceptions.md R126). -/
  | disconnected
  /-- Row SRC_ERROR (60_exceptions.md R127). -/
  | srcError
  /-- Row RESET (70_reset_and_hazards.md R140). -/
  | reset
  /-- Row ENC_HDR (40_header_codec.md R70). -/
  | encHdr (h : Header)
  /-- Row DEC_HDR (40_header_codec.md R71). -/
  | decHdr (bytes : List Byte)
  /-- Row ENC_REQ (40_header_codec.md R74). -/
  | encReq (typeTag status length : Nat)
  /-- Row ENC_REQ_TEXT (40_header_codec.md R75). -/
  | encReqText (typeTag status : Nat) (text : List Byte)
  deriving DecidableEq, Repr

end Sys2Proof
end

