-- ==== Sys2Proof/Machine/State.lean ====
section
/-! DEFINITION. The state of one FRS instance (10_state.md), its input events, its output items and the reasons an
operation can be refused. -/

namespace Sys2Proof.Machine

/-- The current-header slot: the three data registers `cur.typeTag`, `cur.status`, `cur.length` (10_state.md R10 to
R13). Their widths `TW`, `SW`, `LW` are parameters, so they are naturals in range (assumption 2). -/
structure Slot where
  /-- `cur.typeTag`; 0 means the slot is Empty. -/
  typeTag : Nat
  /-- `cur.status`, carried and never tested. -/
  status : Nat
  /-- `cur.length`, the byte count of the awaited payload. -/
  length : Nat
  deriving DecidableEq, Repr

/-- The canonical Empty value of the slot, (0, 0, 0). -/
def Slot.empty : Slot := { typeTag := 0, status := 0, length := 0 }

/-- The input buffer's contents, oldest byte at index 0: FRS's one storage space (20_memory.md R30). Every list of
bytes is its own canonical form. -/
abbrev Memory := List Byte

/-- The input events of 60_exceptions.md R123. RESET is none of them: it is not queued. -/
inductive Event where
  | deliver (chunk : List Byte)
  | connected
  | connError
  | disconnected
  | srcError
  deriving DecidableEq, Repr

/-- The content of a REPORT item (10_state.md R20, 60_exceptions.md R129). -/
inductive Report where
  /-- `REPORT(SRC_ERROR)`. -/
  | srcError
  /-- `REPORT(LEN_MISMATCH, (typeTag, length))`. -/
  | lenMismatch (typeTag length : Nat)
  deriving DecidableEq, Repr

/-- One item of the output trace (10_state.md R20, 42_dispatcher.md R107). -/
inductive Item where
  /-- `FRAME(h, p)`. -/
  | frame (h : Header) (p : List Byte)
  | evConnected
  | evConnError
  | evDisconnected
  /-- `REPORT(code, info)`. -/
  | report (r : Report)
  | evTime (status : Nat) (raw : List Byte)
  | evFreeSize (status : Nat) (value : BitVec 32)
  | evStats (status : Nat) (raw : List Byte)
  | evSetDataReply (status : Nat) (raw : List Byte)
  | evClearAck (status : Nat)
  deriving DecidableEq, Repr

/-- What the outside asks of FRS beside the input events: the reset that is not queued (70_reset_and_hazards.md R140)
and the codec functions a caller evaluates (20_memory.md R46). The model's own, assumption 4. -/
inductive Call where
  | reset
  | encHdr (h : Header)
  | decHdr (bytes : List Byte)
  | encReq (typeTag status length : Nat)
  | encReqText (typeTag status : Nat) (text : List Byte)
  deriving DecidableEq, Repr

/-- What a codec function hands back to its caller (40_header_codec.md). The model's own, assumption 5. -/
inductive Returned where
  /-- The bytes of ENC_HDR, ENC_REQ or ENC_REQ_TEXT. -/
  | bytes (s : List Byte)
  /-- DEC_HDR's header, with the count of bytes it took. -/
  | header (h : Header) (taken : Nat)
  /-- DEC_HDR's `InsufficientData`, an ordinary result. -/
  | insufficientData
  deriving DecidableEq, Repr

/-- One instance of FRS: everything 10_state.md gives it, for one connection (R27), and two fields of the model's own
for the caller's side of the codec. -/
structure State where
  /-- The parameters of 00_scope.md R4. Not state of the hardware: no step writes them (20_memory.md R45). -/
  cfg : Config
  /-- `cur`, the current-header slot (10_state.md R10). -/
  cur : Slot
  /-- `resync`, the only flag (10_state.md R15). -/
  resync : Bool
  /-- `buf`, the input buffer (10_state.md R17). -/
  buf : Memory
  /-- `inq`, the input event queue, head first (10_state.md R19). -/
  inq : List Event
  /-- `out`, the output trace, in emission order (10_state.md R20). -/
  out : List Item
  /-- `arrived`, the ghost of 10_state.md R26: every byte appended to `buf` since its last clear. -/
  arrived : List Byte
  /-- The model's own: what the outside asks for now, if anything (assumption 4). -/
  call : Option Call
  /-- The model's own: what the last codec function evaluated handed back (assumption 5). -/
  ret : Option Returned
  deriving DecidableEq, Repr

/-- FRS has no fault: 41_reassembler.md R92, "no rule raises anything", and 93_implementation_defined.md, "No
behaviour is treated as `fault`". So the type has no constructor and no step can fault (assumption 14). -/
inductive Fault where
  deriving DecidableEq, Repr

/-- Why an operation has no meaning where it is tried. -/
inductive Refusal where
  /-- Raised by exec's arm of an operation that has no meaning in the model yet. Safe. -/
  | notModelled (mnemonic : String)
  /-- Raised by a transition, wait, frame or event whose guard does not hold: the spec gives an operation an effect only
  where it is enabled (00_scope.md R6). No step raises it. Safe (assumption 8). -/
  | notEnabled (mnemonic : String)
  /-- Raised by a codec function on a record that is not well-typed (40_header_codec.md R73). Safe (assumption 13). -/
  | notWellTyped (mnemonic : String)
  /-- Raised by ENC_REQ_TEXT when the encoded text has `256^LB` bytes or more: "a model refuses such an operand"
  (40_header_codec.md R75, 93_implementation_defined.md U15). Safe. -/
  | textTooLong
  /-- Raised by every operation when the parameters break 00_scope.md R4 or R5: "the configuration record is not
  well-formed and no rule applies" (93_implementation_defined.md U26). Safe (assumption 12). -/
  | configNotWellFormed
  deriving DecidableEq, Repr

/-- The state right after reset at given parameters (10_state.md R24). -/
def State.resetWith (c : Config) : State where
  cfg := c
  cur := Slot.empty
  resync := false
  buf := []
  inq := []
  out := []
  arrived := []
  call := none
  ret := none

/-- The state right after reset of the one machine the host runs: the default parameters (assumption 1). -/
def State.reset : State := State.resetWith Config.default

end Sys2Proof.Machine
end

