-- ==== Sys2Proof/Machine/Flags.lean ====
section
/-! DEFINITION. The one flag of FRS, `resync`, and the mode that is derived from it and the slot
(10_state.md R14, R15). -/

namespace Sys2Proof.Machine

/-- `mode`, a derived value and not a register (10_state.md R14). -/
def State.mode (s : State) : Mode :=
  if s.cur.typeTag ≠ 0 then .awaitPayload
  else if s.resync then .resync
  else .awaitHeader

/-- `resync <- 1` (41_reassembler.md R82). -/
def State.setResync (s : State) : State := { s with resync := true }

/-- `resync <- 0` (41_reassembler.md R84, R85, 60_exceptions.md R125, R126, 70_reset_and_hazards.md R140). -/
def State.clearResync (s : State) : State := { s with resync := false }

end Sys2Proof.Machine
end

