-- ==== Sys2Proof/Machine/Bytes.lean ====
section
/-! DEFINITION. Byte order, the derived parameters, the marker test and the header codec as pure functions
(00_scope.md R4 and R6, 30_encoding.md R50 to R54, 40_header_codec.md R70 and R71). -/

namespace Sys2Proof.Machine

/-- `be(s)`: the value of `s` read most significant byte first (00_scope.md R6). -/
def be : List Byte → Nat
  | [] => 0
  | b :: s => b.toNat * 256 ^ s.length + be s

/-- `le(s)`: the value of `s` read least significant byte first (00_scope.md R6). -/
def le : List Byte → Nat
  | [] => 0
  | b :: s => b.toNat + 256 * le s

/-- The `n` bytes of `v`, least significant first. -/
def leBytes : Nat → Nat → List Byte
  | 0, _ => []
  | n + 1, v => BitVec.ofNat 8 v :: leBytes n (v / 256)

/-- The `n` bytes of `v`, most significant first. -/
def beBytes (n v : Nat) : List Byte := (leBytes n v).reverse

/-- `U(s)`: the value of `s` in the configured byte order (00_scope.md R6). -/
def valueOf (c : Config) (s : List Byte) : Nat :=
  match c.order with
  | .big => be s
  | .little => le s

/-- `B(n, v)`: the `n` bytes of `v` in the configured byte order (00_scope.md R6). -/
def bytesOf (c : Config) (n v : Nat) : List Byte :=
  match c.order with
  | .big => beBytes n v
  | .little => leBytes n v

/-- `H = 2 + TB + SB + LB`, the encoded size of the header in bytes (00_scope.md R4, 30_encoding.md R50). -/
def headerSize (c : Config) : Nat := 2 + c.tb + c.sb + c.lb

/-- `O_TYPE` (30_encoding.md R50). -/
def typeOffset : Nat := 2

/-- `O_STATUS` (30_encoding.md R50). -/
def statusOffset (c : Config) : Nat := 2 + c.tb

/-- `O_LEN` (30_encoding.md R50). -/
def lengthOffset (c : Config) : Nat := 2 + c.tb + c.sb

/-- `M0`, the first wire byte of the marker (00_scope.md R4). -/
def markerByte0 (c : Config) : Byte :=
  match c.order with
  | .big => c.marker.extractLsb' 8 8
  | .little => c.marker.extractLsb' 0 8

/-- `M1`, the second wire byte of the marker (00_scope.md R4). -/
def markerByte1 (c : Config) : Byte :=
  match c.order with
  | .big => c.marker.extractLsb' 0 8
  | .little => c.marker.extractLsb' 8 8

/-- `match(s)`: at least two bytes, and the first two are `M0`, `M1` (30_encoding.md R54). -/
def markerMatches (c : Config) : List Byte → Bool
  | b0 :: b1 :: _ => decide (b0 = markerByte0 c ∧ b1 = markerByte1 c)
  | _ => false

/-- The `n` bytes of `s` at offset `off` (`s[off .. off+n-1]`, 00_scope.md R6), used with `off + n <= |s|`. -/
def slice (s : List Byte) (off n : Nat) : List Byte := (s.drop off).take n

/-- Field assembly (30_encoding.md R51): the header record the first `H` bytes of `s` stand for. -/
def headerAt (c : Config) (s : List Byte) : Header where
  marker := BitVec.ofNat 16 (valueOf c (slice s 0 2))
  typeTag := valueOf c (slice s typeOffset c.tb)
  status := valueOf c (slice s (statusOffset c) c.sb)
  length := valueOf c (slice s (lengthOffset c) c.lb)

/-- ENC_HDR as a function (40_header_codec.md R70). -/
def encodeHeader (c : Config) (h : Header) : List Byte :=
  bytesOf c 2 h.marker.toNat ++ bytesOf c c.tb h.typeTag ++ bytesOf c c.sb h.status ++ bytesOf c c.lb h.length

/-- DEC_HDR as a function (40_header_codec.md R71): `none` is `InsufficientData`, and a header comes with the count
of bytes it took. -/
def decodeHeader (c : Config) (s : List Byte) : Option (Header × Nat) :=
  if s.length < headerSize c then none else some (headerAt c s, headerSize c)

/-- The header ENC_REQ encodes: `marker = MARKER` supplied (40_header_codec.md R74); also the header DISPATCH hands
on (10_state.md R22). -/
def markedHeader (c : Config) (typeTag status length : Nat) : Header where
  marker := c.marker
  typeTag := typeTag
  status := status
  length := length

/-- Parallel form (30_encoding.md R52): wire byte 0 in the most significant eight bits of the flat vector. -/
def flatVector (s : List Byte) : Nat := be s

/-- The `n` wire bytes of a flat vector (30_encoding.md R52). -/
def wireBytes (n hv : Nat) : List Byte := beBytes n hv

/-- The number of values of an `n`-byte field, `256^n`. -/
def fieldRange (n : Nat) : Nat := 256 ^ n

/-- BUF_CAP (20_memory.md R35): may the buffer hold `n` bytes? -/
def withinCapacity (c : Config) (n : Nat) : Bool :=
  match c.bufCap with
  | none => true
  | some cap => decide (n ≤ cap)

end Sys2Proof.Machine
end

