-- ==== Sys2Proof/WellFormed.lean ====
section
/-! DEFINITION. Which configurations and which operations are well-formed: the parameter constraints of 00_scope.md R4
and R5 and the guards of spec/opcode_table.json that speak of operands alone. -/

namespace Sys2Proof

/-- The parameter constraints (00_scope.md R4, R5, 20_memory.md R35). A configuration that breaks them is refused
(93_implementation_defined.md U26). -/
def Config.wf (c : Config) : Bool :=
  decide (1 ≤ c.tb) && decide (1 ≤ c.sb) && decide (1 ≤ c.lb)
    && c.tags.all (fun t => decide (t ≠ 0 ∧ t < Machine.fieldRange c.tb))
    && decide c.tags.Nodup
    && Machine.withinCapacity c (Machine.headerSize c)

/-- A `typeTag` that fits `TW` bits. -/
def tagFits (c : Config) (t : Nat) : Bool := decide (t < Machine.fieldRange c.tb)

/-- A `status` that fits `SW` bits. -/
def statusFits (c : Config) (st : Nat) : Bool := decide (st < Machine.fieldRange c.sb)

/-- A `length` that fits `LW` bits; also the guard of ENC_REQ_TEXT, `|p| < 256^LB` (40_header_codec.md R75). -/
def lengthFits (c : Config) (n : Nat) : Bool := decide (n < Machine.fieldRange c.lb)

/-- The three parametric fields in range. -/
def fieldsFit (c : Config) (t st n : Nat) : Bool := tagFits c t && statusFits c st && lengthFits c n

/-- A well-typed header record (40_header_codec.md R73). -/
def Header.wellTyped (c : Config) (h : Header) : Bool := fieldsFit c h.typeTag h.status h.length

/-- A valid header: well-typed, the right marker, a nonzero tag (40_header_codec.md R73). -/
def Header.valid (c : Config) (h : Header) : Bool :=
  h.wellTyped c && decide (h.marker = c.marker) && decide (h.typeTag ≠ 0)

/-- The guard of row UNKNOWN_KIND on the tag: nonzero and none of the five (30_encoding.md R58). -/
def isUnknownTag (c : Config) (t : Nat) : Bool := decide (t ≠ 0) && decide (t ∉ c.tags)

/-- The guard of row LEN_MISMATCH (42_dispatcher.md R106). -/
def isLenMismatch (c : Config) (t n : Nat) : Bool :=
  (decide (t = c.tagGetSize) && decide (n ≠ 4)) || (decide (t = c.tagClearData) && decide (n ≠ 0))

/-- Two bytes that are not the marker (30_encoding.md R57). -/
def isNotMarker (c : Config) (b0 b1 : Byte) : Bool := !Machine.markerMatches c [b0, b1]

/-- Well-formed operations. A GET_SIZE or CLEAR_DATA frame of the wrong length is the row LEN_MISMATCH
(assumption 7). -/
def Instr.wf (c : Config) : Instr → Bool
  | .getTime st n => statusFits c st && lengthFits c n
  | .getSize st n => statusFits c st && lengthFits c n && decide (n = 4)
  | .getStat st n => statusFits c st && lengthFits c n
  | .setData st n => statusFits c st && lengthFits c n
  | .clearData st n => statusFits c st && lengthFits c n && decide (n = 0)
  | .unknownKind t st n => fieldsFit c t st n && isUnknownTag c t
  | .lenMismatch t st n => fieldsFit c t st n && isLenMismatch c t n
  | .nullHeader st n => statusFits c st && lengthFits c n
  | .hdrAccept t st n => fieldsFit c t st n && decide (t ≠ 0)
  | .hdrNull st n => statusFits c st && lengthFits c n
  | .hdrMismatch b0 b1 => isNotMarker c b0 b1
  | .resyncSkip b0 b1 => isNotMarker c b0 b1
  | .resyncFound => true
  | .resyncEnd => true
  | .dispatch => true
  | .hdrWait => true
  | .payloadWait => true
  | .deliver _ => true
  | .connected => true
  | .connError => true
  | .disconnected => true
  | .srcError => true
  | .reset => true
  | .encHdr h => h.wellTyped c
  | .decHdr _ => true
  | .encReq t st n => fieldsFit c t st n
  | .encReqText t st x => tagFits c t && statusFits c st && lengthFits c (Config.encText x).length

end Sys2Proof
end

