-- ==== Sys2Proof/Machine/Ops.lean ====
section
/-! DEFINITION. The shared operations: the primitives of 00_scope.md R7 (Append, Consume, MemRead, Emit), the writes of
the slot, the entry into and the exit from RESYNC, the clear of a connection, and how an operation is refused where its
guard does not hold. -/

namespace Sys2Proof.Machine

/-- `MemRead(off, n)`: the bytes at offset `off` from the head, defined when `off + n <= |buf|`
(20_memory.md R36). -/
def Memory.read (m : Memory) (off n : Nat) : Option (List Byte) :=
  if off + n ≤ m.length then some (slice m off n) else none

/-- `buf[i]`: the byte at offset `i` from the head; no byte at or past `|buf|` (20_memory.md R30). -/
def Memory.readByte (m : Memory) (i : Nat) : Option Byte := m[i]?

/-- `buf ++ s` (20_memory.md R33). -/
def Memory.append (m : Memory) (s : List Byte) : Memory := m ++ s

/-- `drop(n, buf)`, used with `n <= |buf|` (20_memory.md R34). -/
def Memory.consume (m : Memory) (n : Nat) : Memory := m.drop n

/-- INV3 of 10_state.md R16: the buffer holds at most `BUF_CAP` bytes. -/
def Memory.wf (c : Config) (m : Memory) : Bool := withinCapacity c m.length

/-- `Append(s)` (00_scope.md R7), with the ghost `arrived` beside it (10_state.md R26). -/
def State.append (s : State) (chunk : List Byte) : State :=
  { s with buf := s.buf.append chunk, arrived := s.arrived ++ chunk }

/-- `Consume(n)` (00_scope.md R7). -/
def State.consume (s : State) (n : Nat) : State := { s with buf := s.buf.consume n }

/-- `Emit(x)` for several items in order (00_scope.md R7). -/
def State.emit (s : State) (items : List Item) : State := { s with out := s.out ++ items }

/-- `cur.typeTag <- t; cur.status <- st; cur.length <- n`. -/
def State.setSlot (s : State) (t st n : Nat) : State :=
  { s with cur := { typeTag := t, status := st, length := n } }

/-- The slot back to its canonical Empty value (41_reassembler.md R86). -/
def State.clearSlot (s : State) : State := { s with cur := Slot.empty }

/-- The clear that CONNECTED, DISCONNECTED and RESET share: buffer, slot and flag, and with the buffer the ghost
`arrived` (60_exceptions.md R125, R126, 70_reset_and_hazards.md R140, 10_state.md R26). -/
def State.clearConnection (s : State) : State :=
  { s with buf := [], cur := Slot.empty, resync := false, arrived := [] }

/-- The head of `inq` removed (60_exceptions.md R138). -/
def State.dequeue (s : State) : State := { s with inq := s.inq.tail }

/-- The codec function's result handed to its caller (assumption 5). -/
def State.giveBack (s : State) (r : Returned) : State := { s with ret := some r }

/-- Entry into RESYNC, the nearest thing FRS has to taking an exception (60_exceptions.md R131): one byte discarded,
`resync` set, nothing saved (41_reassembler.md R82). -/
def State.enterResync (s : State) : State := (s.consume 1).setResync

/-- Exit from RESYNC, the nearest thing FRS has to a return (60_exceptions.md R132): `resync` cleared, nothing else
(41_reassembler.md R84, R85). -/
def State.leaveResync (s : State) : State := s.clearResync

/-- An operation with its guard: the next state where the guard holds, a refusal by name where the operation is not
enabled or the parameters are not well-formed (assumptions 8 and 12). -/
def State.guarded (s : State) (mnemonic : String) (guard : Prop) [Decidable guard] (t : State) :
    Host.Outcome State Fault Refusal :=
  if s.cfg.wf then
    if guard then .next t else .refused (.notEnabled mnemonic)
  else .refused .configNotWellFormed

/-- A codec function with its operand's type check (assumptions 12 and 13). -/
def State.typed (s : State) (mnemonic : String) (ok : Bool) (t : State) : Host.Outcome State Fault Refusal :=
  if s.cfg.wf then
    if ok then .next t else .refused (.notWellTyped mnemonic)
  else .refused .configNotWellFormed

/-- `consumed = |arrived| - |buf|`, the stream position of the head (10_state.md R26). -/
def State.consumed (s : State) : Nat := s.arrived.length - s.buf.length

/-- ENV places an input event at the tail of `inq`, at any time (60_exceptions.md R123). Not a step of FRS: the outside
world's move (assumption 19). -/
def State.issue (s : State) (e : Event) : State := { s with inq := s.inq ++ [e] }

/-- The outside asks for a reset or a codec function, at any time (assumption 4). Not a step of FRS. -/
def State.request (s : State) (c : Call) : State := { s with call := some c }

end Sys2Proof.Machine
end

