-- ==== Sys2Proof/Machine/Codec.lean ====
section
/-! DEFINITION. The header codec operations (40_header_codec.md R70 to R75). They are pure functions: all they change
is `ret`, the model's own place for the result (20_memory.md R46, assumption 5). -/

namespace Sys2Proof.Machine

/-- ENC_HDR (40_header_codec.md R70): no check of the marker or the tag. -/
def execEncHdr (h : Header) (s : State) : Host.Outcome State Fault Refusal :=
  s.typed "ENC_HDR" (h.wellTyped s.cfg) (s.giveBack (.bytes (encodeHeader s.cfg h)))

/-- DEC_HDR's result as it is handed back (40_header_codec.md R71). -/
def decHdrResult (c : Config) (bytes : List Byte) : Returned :=
  match decodeHeader c bytes with
  | none => .insufficientData
  | some (h, taken) => .header h taken

/-- DEC_HDR (40_header_codec.md R71): every byte sequence is a legal operand. -/
def execDecHdr (bytes : List Byte) (s : State) : Host.Outcome State Fault Refusal :=
  s.typed "DEC_HDR" true (s.giveBack (decHdrResult s.cfg bytes))

/-- ENC_REQ (40_header_codec.md R74): `marker = MARKER` supplied. -/
def execEncReq (t st n : Nat) (s : State) : Host.Outcome State Fault Refusal :=
  s.typed "ENC_REQ" (fieldsFit s.cfg t st n) (s.giveBack (.bytes (encodeHeader s.cfg (markedHeader s.cfg t st n))))

/-- ENC_REQ_TEXT's bytes for an encoded text `p` (40_header_codec.md R75). -/
def requestWithPayload (c : Config) (t st : Nat) (p : List Byte) : List Byte :=
  encodeHeader c (markedHeader c t st p.length) ++ p

/-- ENC_REQ_TEXT for an encoded text `p`: refused where its length does not fit the field (40_header_codec.md R75). -/
def encReqPayload (t st : Nat) (p : List Byte) (s : State) : Host.Outcome State Fault Refusal :=
  if lengthFits s.cfg p.length then
    s.typed "ENC_REQ_TEXT" (tagFits s.cfg t && statusFits s.cfg st)
      (s.giveBack (.bytes (requestWithPayload s.cfg t st p)))
  else .refused .textTooLong

/-- ENC_REQ_TEXT (40_header_codec.md R75). -/
def execEncReqText (t st : Nat) (text : List Byte) (s : State) : Host.Outcome State Fault Refusal :=
  encReqPayload t st (Config.encText text) s

end Sys2Proof.Machine
end

