-- ==== Sys2Proof/Machine/Operands.lean ====
section
/-! DEFINITION. The parts of the state the operations read: the pending frame, the guards of 41_reassembler.md R80 to
R88, quiescence (R89) and when an input event can be taken (60_exceptions.md R138). -/

namespace Sys2Proof.Machine

/-- `H` at the state's parameters. -/
def State.headerSize (s : State) : Nat := Machine.headerSize s.cfg

/-- `match(buf)` (30_encoding.md R54). -/
def State.atMarker (s : State) : Bool := markerMatches s.cfg s.buf

/-- `DEC_HDR(take(H, buf))`, read where `|buf| >= H` (41_reassembler.md R80). -/
def State.headHeader (s : State) : Header := headerAt s.cfg (s.buf.take s.headerSize)

/-- The header DISPATCH hands on, rebuilt from the slot (10_state.md R22). -/
def State.pendingHeader (s : State) : Header := markedHeader s.cfg s.cur.typeTag s.cur.status s.cur.length

/-- `take(cur.length, buf)`, the payload DISPATCH hands on (41_reassembler.md R86). -/
def State.pendingPayload (s : State) : List Byte := s.buf.take s.cur.length

/-- A whole candidate header is buffered in AWAIT_HEADER and begins with the marker: the common part of the guards of
HDR_ACCEPT and HDR_NULL (41_reassembler.md R80, R81). -/
abbrev State.markedCandidate (s : State) : Prop :=
  s.mode = .awaitHeader ∧ s.headerSize ≤ s.buf.length ∧ s.atMarker = true

/-- Guard of HDR_ACCEPT (41_reassembler.md R80), the operands being the header's fields. -/
abbrev State.hdrAcceptGuard (s : State) (t st n : Nat) : Prop :=
  s.markedCandidate ∧ t ≠ 0
    ∧ s.headHeader.typeTag = t ∧ s.headHeader.status = st ∧ s.headHeader.length = n

/-- Guard of HDR_NULL (41_reassembler.md R81), the operands being the header's other fields. -/
abbrev State.hdrNullGuard (s : State) (st n : Nat) : Prop :=
  s.markedCandidate
    ∧ s.headHeader.typeTag = 0 ∧ s.headHeader.status = st ∧ s.headHeader.length = n

/-- Guard of HDR_MISMATCH (41_reassembler.md R82), the operands being the two bytes compared. -/
abbrev State.hdrMismatchGuard (s : State) (b0 b1 : Byte) : Prop :=
  s.mode = .awaitHeader ∧ s.headerSize ≤ s.buf.length ∧ s.atMarker = false
    ∧ s.buf.readByte 0 = some b0 ∧ s.buf.readByte 1 = some b1

/-- Guard of RESYNC_SKIP (41_reassembler.md R83), the operands being the two bytes compared. -/
abbrev State.resyncSkipGuard (s : State) (b0 b1 : Byte) : Prop :=
  s.mode = .resync ∧ 2 ≤ s.buf.length ∧ s.atMarker = false
    ∧ s.buf.readByte 0 = some b0 ∧ s.buf.readByte 1 = some b1

/-- Guard of RESYNC_FOUND (41_reassembler.md R84). -/
abbrev State.resyncFoundGuard (s : State) : Prop := s.mode = .resync ∧ s.atMarker = true

/-- Guard of RESYNC_END (41_reassembler.md R85). -/
abbrev State.resyncEndGuard (s : State) : Prop := s.mode = .resync ∧ s.buf.length < 2

/-- Guard of DISPATCH (41_reassembler.md R86). -/
abbrev State.dispatchGuard (s : State) : Prop := s.mode = .awaitPayload ∧ s.cur.length ≤ s.buf.length

/-- Condition of HDR_WAIT (41_reassembler.md R87). -/
abbrev State.hdrWaitGuard (s : State) : Prop := s.mode = .awaitHeader ∧ s.buf.length < s.headerSize

/-- Condition of PAYLOAD_WAIT (41_reassembler.md R88). -/
abbrev State.payloadWaitGuard (s : State) : Prop := s.mode = .awaitPayload ∧ s.buf.length < s.cur.length

/-- A complete frame with the given header fields is at hand: DISPATCH's guard and the slot's contents (the guard
column of the FRAME rows of spec/opcode_table.json, assumption 6). -/
abbrev State.frameGuard (s : State) (t st n : Nat) : Prop :=
  s.dispatchGuard ∧ s.cur = { typeTag := t, status := st, length := n }

/-- RSM is quiescent: one of the two waits holds (41_reassembler.md R89). -/
abbrev State.quiescent (s : State) : Prop := s.hdrWaitGuard ∨ s.payloadWaitGuard

/-- The capacity part of DELIVER's guard, `|buf| + |c| <= BUF_CAP` (41_reassembler.md R91). Other events have none. -/
def State.eventFits (s : State) : Event → Bool
  | .deliver chunk => withinCapacity s.cfg (s.buf.length + chunk.length)
  | .connected => true
  | .connError => true
  | .disconnected => true
  | .srcError => true

/-- TAKE's guard: the event is at the head of `inq`, RSM is quiescent, and a delivery fits (60_exceptions.md R138). -/
abbrev State.takeGuard (s : State) (e : Event) : Prop :=
  s.inq.head? = some e ∧ s.quiescent ∧ s.eventFits e = true

end Sys2Proof.Machine
end

