-- ==== Sys2Proof/Machine/Events.lean ====
section
/-! DEFINITION. The input events (60_exceptions.md R123 to R128, 41_reassembler.md R91) and RESET
(70_reset_and_hazards.md R140). Taking an event removes it from the head of `inq` (60_exceptions.md R138). -/

namespace Sys2Proof.Machine

/-- DELIVER (41_reassembler.md R91): the event removed and its chunk appended. The rule's `drain` is the steps that
follow, one transition each, before any other event can be taken (assumption 3). -/
def execDeliver (chunk : List Byte) (s : State) : Host.Outcome State Fault Refusal :=
  s.guarded "DELIVER" (s.takeGuard (.deliver chunk)) (s.dequeue.append chunk)

/-- CONNECTED (60_exceptions.md R125). -/
def execConnected (s : State) : Host.Outcome State Fault Refusal :=
  s.guarded "CONNECTED" (s.takeGuard .connected) (s.dequeue.clearConnection.emit [.evConnected])

/-- CONN_ERROR (60_exceptions.md R128): forwarded, no other effect. -/
def execConnError (s : State) : Host.Outcome State Fault Refusal :=
  s.guarded "CONN_ERROR" (s.takeGuard .connError) (s.dequeue.emit [.evConnError])

/-- DISCONNECTED (60_exceptions.md R126). -/
def execDisconnected (s : State) : Host.Outcome State Fault Refusal :=
  s.guarded "DISCONNECTED" (s.takeGuard .disconnected) (s.dequeue.clearConnection.emit [.evDisconnected])

/-- SRC_ERROR (60_exceptions.md R127): reported, no other effect. -/
def execSrcError (s : State) : Host.Outcome State Fault Refusal :=
  s.guarded "SRC_ERROR" (s.takeGuard .srcError) (s.dequeue.emit [.report .srcError])

/-- RESET (70_reset_and_hazards.md R140): in any state, the queue cleared too, nothing emitted. -/
def execReset (s : State) : Host.Outcome State Fault Refusal :=
  s.guarded "RESET" True { s.clearConnection with inq := [] }

end Sys2Proof.Machine
end

