-- ==== Sys2Proof/Machine/Frames.lean ====
section
/-! DEFINITION. The dispatcher (42_dispatcher.md R100 to R108) and the FRAME rows. A frame row is performed when its
frame is complete, inside DISPATCH: the payload is consumed, the FRAME item is emitted, the dispatcher's item for the
kind follows it directly, the slot is cleared, all in one step (41_reassembler.md R86, assumption 6). -/

namespace Sys2Proof.Machine

/-- DSP_GET_TIME (42_dispatcher.md R100). -/
def dspGetTime (h : Header) (p : List Byte) : List Item := [.evTime h.status p]

/-- LEN_MISMATCH (42_dispatcher.md R106). -/
def dspLenMismatch (h : Header) : List Item := [.report (.lenMismatch h.typeTag h.length)]

/-- DSP_GET_SIZE (42_dispatcher.md R101). -/
def dspGetSize (c : Config) (h : Header) (p : List Byte) : List Item :=
  if p.length = 4 then [.evFreeSize h.status (BitVec.ofNat 32 (valueOf c p))] else dspLenMismatch h

/-- DSP_GET_STAT (42_dispatcher.md R102). -/
def dspGetStat (h : Header) (p : List Byte) : List Item := [.evStats h.status p]

/-- DSP_SET_DATA (42_dispatcher.md R103). -/
def dspSetData (h : Header) (p : List Byte) : List Item := [.evSetDataReply h.status p]

/-- DSP_CLEAR_DATA (42_dispatcher.md R104). -/
def dspClearData (h : Header) (p : List Byte) : List Item :=
  if p.length = 0 then [.evClearAck h.status] else dspLenMismatch h

/-- DSP_UNKNOWN (42_dispatcher.md R105). -/
def dspUnknown : List Item := []

/-- DSP, the dispatcher: a pure function of the frame, selected by `typeTag` (42_dispatcher.md R108). -/
def dsp (c : Config) (h : Header) (p : List Byte) : List Item :=
  if h.typeTag = c.tagGetTime then dspGetTime h p
  else if h.typeTag = c.tagGetSize then dspGetSize c h p
  else if h.typeTag = c.tagGetStat then dspGetStat h p
  else if h.typeTag = c.tagSetData then dspSetData h p
  else if h.typeTag = c.tagClearData then dspClearData h p
  else dspUnknown

/-- What the raw payload of a typed event means, where the spec names a decoder for it (42_dispatcher.md R107). -/
def Item.meaning : Item → Option (List Byte)
  | .frame _ _ => none
  | .evConnected => none
  | .evConnError => none
  | .evDisconnected => none
  | .report _ => none
  | .evTime _ raw => some (Config.decTime raw)
  | .evFreeSize _ _ => none
  | .evStats _ raw => some (Config.decStat raw)
  | .evSetDataReply _ raw => some (Config.decText raw)
  | .evClearAck _ => none

/-- The effect of handing over the pending frame with the dispatcher's items behind its FRAME item
(41_reassembler.md R86). -/
def State.handOver (s : State) (items : List Item) : State :=
  ((s.consume s.cur.length).emit (.frame s.pendingHeader s.pendingPayload :: items)).clearSlot

/-- Row GET_TIME. -/
def execGetTime (st n : Nat) (s : State) : Host.Outcome State Fault Refusal :=
  s.guarded "GET_TIME" (s.frameGuard s.cfg.tagGetTime st n)
    (s.handOver (dspGetTime s.pendingHeader s.pendingPayload))

/-- Row GET_SIZE. -/
def execGetSize (st n : Nat) (s : State) : Host.Outcome State Fault Refusal :=
  s.guarded "GET_SIZE" (s.frameGuard s.cfg.tagGetSize st n)
    (s.handOver (dspGetSize s.cfg s.pendingHeader s.pendingPayload))

/-- Row GET_STAT. -/
def execGetStat (st n : Nat) (s : State) : Host.Outcome State Fault Refusal :=
  s.guarded "GET_STAT" (s.frameGuard s.cfg.tagGetStat st n)
    (s.handOver (dspGetStat s.pendingHeader s.pendingPayload))

/-- Row SET_DATA. -/
def execSetData (st n : Nat) (s : State) : Host.Outcome State Fault Refusal :=
  s.guarded "SET_DATA" (s.frameGuard s.cfg.tagSetData st n)
    (s.handOver (dspSetData s.pendingHeader s.pendingPayload))

/-- Row CLEAR_DATA. -/
def execClearData (st n : Nat) (s : State) : Host.Outcome State Fault Refusal :=
  s.guarded "CLEAR_DATA" (s.frameGuard s.cfg.tagClearData st n)
    (s.handOver (dspClearData s.pendingHeader s.pendingPayload))

/-- Row UNKNOWN_KIND. -/
def execUnknownKind (t st n : Nat) (s : State) : Host.Outcome State Fault Refusal :=
  s.guarded "UNKNOWN_KIND" (s.frameGuard t st n ∧ isUnknownTag s.cfg t = true) (s.handOver dspUnknown)

/-- Row LEN_MISMATCH. -/
def execLenMismatch (t st n : Nat) (s : State) : Host.Outcome State Fault Refusal :=
  s.guarded "LEN_MISMATCH" (s.frameGuard t st n ∧ isLenMismatch s.cfg t n = true)
    (s.handOver (dspLenMismatch s.pendingHeader))

/-- Row NULL_HEADER: consumed as HDR_NULL consumes it, no payload taken and no item emitted (30_encoding.md R56,
41_reassembler.md R81). -/
def execNullHeader (st n : Nat) (s : State) : Host.Outcome State Fault Refusal :=
  s.guarded "NULL_HEADER" (s.hdrNullGuard st n) (s.consume s.headerSize)

end Sys2Proof.Machine
end

