-- ==== Sys2Proof/Machine/Reassembler.lean ====
section
/-! DEFINITION. The frame reassembler's seven transitions and two waits (41_reassembler.md R80 to R88), each one atomic
step (20_memory.md R39). -/

namespace Sys2Proof.Machine

/-- HDR_ACCEPT (41_reassembler.md R80). -/
def execHdrAccept (t st n : Nat) (s : State) : Host.Outcome State Fault Refusal :=
  s.guarded "HDR_ACCEPT" (s.hdrAcceptGuard t st n) ((s.consume s.headerSize).setSlot t st n)

/-- HDR_NULL (41_reassembler.md R81). -/
def execHdrNull (st n : Nat) (s : State) : Host.Outcome State Fault Refusal :=
  s.guarded "HDR_NULL" (s.hdrNullGuard st n) (s.consume s.headerSize)

/-- HDR_MISMATCH (41_reassembler.md R82): one byte discarded, not `H` (90_conflicts.md C1). -/
def execHdrMismatch (b0 b1 : Byte) (s : State) : Host.Outcome State Fault Refusal :=
  s.guarded "HDR_MISMATCH" (s.hdrMismatchGuard b0 b1) s.enterResync

/-- RESYNC_SKIP (41_reassembler.md R83). -/
def execResyncSkip (b0 b1 : Byte) (s : State) : Host.Outcome State Fault Refusal :=
  s.guarded "RESYNC_SKIP" (s.resyncSkipGuard b0 b1) (s.consume 1)

/-- RESYNC_FOUND (41_reassembler.md R84). -/
def execResyncFound (s : State) : Host.Outcome State Fault Refusal :=
  s.guarded "RESYNC_FOUND" s.resyncFoundGuard s.leaveResync

/-- RESYNC_END (41_reassembler.md R85): a last single byte is kept (90_conflicts.md C3). -/
def execResyncEnd (s : State) : Host.Outcome State Fault Refusal :=
  s.guarded "RESYNC_END" s.resyncEndGuard s.leaveResync

/-- DISPATCH (41_reassembler.md R86), the dispatcher invoked inside it (42_dispatcher.md R108). -/
def execDispatch (s : State) : Host.Outcome State Fault Refusal :=
  s.guarded "DISPATCH" s.dispatchGuard (s.handOver (dsp s.cfg s.pendingHeader s.pendingPayload))

/-- HDR_WAIT (41_reassembler.md R87): no state changes. -/
def execHdrWait (s : State) : Host.Outcome State Fault Refusal :=
  s.guarded "HDR_WAIT" s.hdrWaitGuard s

/-- PAYLOAD_WAIT (41_reassembler.md R88): no state changes. -/
def execPayloadWait (s : State) : Host.Outcome State Fault Refusal :=
  s.guarded "PAYLOAD_WAIT" s.payloadWaitGuard s

end Sys2Proof.Machine
end

