-- ==== Sys2Proof/Machine/Dispatch.lean ====
section
/-! DEFINITION. One arm per operation, in the order of spec/opcode_table.json. -/

namespace Sys2Proof.Machine

def exec (i : Instr) (s : State) : Host.Outcome State Fault Refusal :=
  match i with
  | .getTime st n => Sys2Proof.Machine.execGetTime st n s
  | .getSize st n => Sys2Proof.Machine.execGetSize st n s
  | .getStat st n => Sys2Proof.Machine.execGetStat st n s
  | .setData st n => Sys2Proof.Machine.execSetData st n s
  | .clearData st n => Sys2Proof.Machine.execClearData st n s
  | .unknownKind t st n => Sys2Proof.Machine.execUnknownKind t st n s
  | .lenMismatch t st n => Sys2Proof.Machine.execLenMismatch t st n s
  | .nullHeader st n => Sys2Proof.Machine.execNullHeader st n s
  | .hdrAccept t st n => Sys2Proof.Machine.execHdrAccept t st n s
  | .hdrNull st n => Sys2Proof.Machine.execHdrNull st n s
  | .hdrMismatch b0 b1 => Sys2Proof.Machine.execHdrMismatch b0 b1 s
  | .resyncSkip b0 b1 => Sys2Proof.Machine.execResyncSkip b0 b1 s
  | .resyncFound => Sys2Proof.Machine.execResyncFound s
  | .resyncEnd => Sys2Proof.Machine.execResyncEnd s
  | .dispatch => Sys2Proof.Machine.execDispatch s
  | .hdrWait => Sys2Proof.Machine.execHdrWait s
  | .payloadWait => Sys2Proof.Machine.execPayloadWait s
  | .deliver chunk => Sys2Proof.Machine.execDeliver chunk s
  | .connected => Sys2Proof.Machine.execConnected s
  | .connError => Sys2Proof.Machine.execConnError s
  | .disconnected => Sys2Proof.Machine.execDisconnected s
  | .srcError => Sys2Proof.Machine.execSrcError s
  | .reset => Sys2Proof.Machine.execReset s
  | .encHdr h => Sys2Proof.Machine.execEncHdr h s
  | .decHdr bytes => Sys2Proof.Machine.execDecHdr bytes s
  | .encReq t st n => Sys2Proof.Machine.execEncReq t st n s
  | .encReqText t st text => Sys2Proof.Machine.execEncReqText t st text s

end Sys2Proof.Machine
end

