-- ==== Sys2Proof/Decode.lean ====
section
/-! DEFINITION. From bytes to operations and back. The rows of spec/opcode_table.json share bit patterns (a marked
header is at once a frame, a header to accept and an encoded request), and 30_encoding.md R65 says that a decoder needs
the pattern AND the guard. A `View` is what the guard knows beside the bytes: the row's format, the reassembler's mode,
the pending length, the codec function that is called. -/

namespace Sys2Proof

/-- The four codec functions of 40_header_codec.md. -/
inductive CodecOp where
  | encHdr
  | decHdr
  | encReq
  | encReqText
  deriving DecidableEq, Repr

/-- How bytes are looked at: what a row's guard needs beside its bit pattern (30_encoding.md R65). -/
inductive View where
  /-- FRAME rows: a header on the wire, the payload behind it. -/
  | frame
  /-- TRANSITION and WAIT rows: the buffered bytes, in the given mode, with the given pending `cur.length`. -/
  | rsm (mode : Mode) (pending : Nat)
  /-- Row DELIVER: the bytes are the chunk. -/
  | chunk
  /-- The lifecycle and error events: one byte, the informative `ev_kind` code of 70_reset_and_hazards.md R144. -/
  | port
  /-- Row RESET: one byte, the informative `rst` bit of 70_reset_and_hazards.md R144. -/
  | resetPin
  /-- CODEC rows: the bytes the function produces or reads. -/
  | codec (op : CodecOp)
  deriving DecidableEq, Repr

/-- Why bytes are no operation of the given view. -/
inductive DecodeError where
  /-- Fewer than `H` bytes where a header is needed. -/
  | shortHeader
  /-- The first two bytes are not the marker where the row fixes them. -/
  | badMarker
  /-- Fewer payload bytes than the header's `length`. -/
  | shortPayload
  /-- No code of `ev_kind`. -/
  | badPortCode
  /-- The reset bit is not asserted. -/
  | noReset
  deriving DecidableEq, Repr

/-- Byte `i` of the bytes at hand. -/
def byteAt (s : List Byte) (i : Nat) : Byte := s.getD i 0

/-- The frame row a marked header selects (30_encoding.md R55, R56, R58, 42_dispatcher.md R106). -/
def kindRow (c : Config) (t st n : Nat) : Instr :=
  if t = 0 then .nullHeader st n
  else if isLenMismatch c t n then .lenMismatch t st n
  else if t = c.tagGetTime then .getTime st n
  else if t = c.tagGetSize then .getSize st n
  else if t = c.tagGetStat then .getStat st n
  else if t = c.tagSetData then .setData st n
  else if t = c.tagClearData then .clearData st n
  else .unknownKind t st n

/-- The one of the nine rows of 41_reassembler.md R80 to R88 whose guard holds (R89). -/
def rsmRow (c : Config) (mode : Mode) (pending : Nat) (buf : List Byte) : Instr :=
  match mode with
  | .awaitHeader =>
    if buf.length < Machine.headerSize c then .hdrWait
    else if Machine.markerMatches c buf then
      let h := Machine.headerAt c buf
      if h.typeTag = 0 then .hdrNull h.status h.length else .hdrAccept h.typeTag h.status h.length
    else .hdrMismatch (byteAt buf 0) (byteAt buf 1)
  | .resync =>
    if Machine.markerMatches c buf then .resyncFound
    else if buf.length < 2 then .resyncEnd
    else .resyncSkip (byteAt buf 0) (byteAt buf 1)
  | .awaitPayload => if pending ≤ buf.length then .dispatch else .payloadWait

/-- A header whose marker bytes the row fixes. -/
def decodeMarked (c : Config) (s : List Byte) : Except DecodeError Header :=
  match Machine.decodeHeader c s with
  | none => .error .shortHeader
  | some (h, _) => if Machine.markerMatches c s then .ok h else .error .badMarker

/-- A lifecycle or error event by its informative port code (70_reset_and_hazards.md R144). -/
def decodePort : List Byte → Except DecodeError Instr
  | [k] =>
    if k = 0 then .ok .connected
    else if k = 1 then .ok .connError
    else if k = 2 then .ok .disconnected
    else if k = 3 then .ok .srcError
    else .error .badPortCode
  | _ => .error .badPortCode

/-- ENC_REQ_TEXT from the bytes it produces: the text is what `decText`, the inverse of `encText`, reads from the
payload (40_header_codec.md R75, 42_dispatcher.md R103). -/
def decodeReqText (c : Config) (s : List Byte) : Except DecodeError Instr :=
  match decodeMarked c s with
  | .error e => .error e
  | .ok h =>
    let p := s.drop (Machine.headerSize c)
    if p.length < h.length then .error .shortPayload
    else .ok (.encReqText h.typeTag h.status (Config.decText (p.take h.length)))

/-- The decoder: total on any bytes in any view, rejecting by name. -/
def decode (c : Config) (v : View) (s : List Byte) : Except DecodeError Instr :=
  match v with
  | .frame => (decodeMarked c s).map fun h => kindRow c h.typeTag h.status h.length
  | .rsm mode pending => .ok (rsmRow c mode pending s)
  | .chunk => .ok (.deliver s)
  | .port => decodePort s
  | .resetPin => if s = [1] then .ok .reset else .error .noReset
  | .codec .encHdr =>
    match Machine.decodeHeader c s with
    | none => .error .shortHeader
    | some (h, _) => .ok (.encHdr h)
  | .codec .decHdr => .ok (.decHdr s)
  | .codec .encReq => (decodeMarked c s).map fun h => .encReq h.typeTag h.status h.length
  | .codec .encReqText => decodeReqText c s

/-- The bytes of a marked header. -/
def markedBytes (c : Config) (t st n : Nat) : List Byte := Machine.encodeHeader c (Machine.markedHeader c t st n)

/-- The view an operation is decoded in: its row's format and the part of its guard the bytes do not show. -/
def viewOf : Instr → View
  | .getTime _ _ => .frame
  | .getSize _ _ => .frame
  | .getStat _ _ => .frame
  | .setData _ _ => .frame
  | .clearData _ _ => .frame
  | .unknownKind _ _ _ => .frame
  | .lenMismatch _ _ _ => .frame
  | .nullHeader _ _ => .frame
  | .hdrAccept _ _ _ => .rsm .awaitHeader 0
  | .hdrNull _ _ => .rsm .awaitHeader 0
  | .hdrMismatch _ _ => .rsm .awaitHeader 0
  | .resyncSkip _ _ => .rsm .resync 0
  | .resyncFound => .rsm .resync 0
  | .resyncEnd => .rsm .resync 0
  | .dispatch => .rsm .awaitPayload 1
  | .hdrWait => .rsm .awaitHeader 0
  | .payloadWait => .rsm .awaitPayload 2
  | .deliver _ => .chunk
  | .connected => .port
  | .connError => .port
  | .disconnected => .port
  | .srcError => .port
  | .reset => .resetPin
  | .encHdr _ => .codec .encHdr
  | .decHdr _ => .codec .decHdr
  | .encReq _ _ _ => .codec .encReq
  | .encReqText _ _ _ => .codec .encReqText

/-- The encoder: the bytes of an operation as its row's pattern gives them (30_encoding.md R50, R65), a bit the row
does not examine written as 0. -/
def encode (c : Config) : Instr → List Byte
  | .getTime st n => markedBytes c c.tagGetTime st n
  | .getSize st n => markedBytes c c.tagGetSize st n
  | .getStat st n => markedBytes c c.tagGetStat st n
  | .setData st n => markedBytes c c.tagSetData st n
  | .clearData st n => markedBytes c c.tagClearData st n
  | .unknownKind t st n => markedBytes c t st n
  | .lenMismatch t st n => markedBytes c t st n
  | .nullHeader st n => markedBytes c 0 st n
  | .hdrAccept t st n => markedBytes c t st n
  | .hdrNull st n => markedBytes c 0 st n
  | .hdrMismatch b0 b1 => b0 :: b1 :: List.replicate (Machine.headerSize c - 2) 0
  | .resyncSkip b0 b1 => [b0, b1]
  | .resyncFound => [Machine.markerByte0 c, Machine.markerByte1 c]
  | .resyncEnd => [0]
  | .dispatch => [0]
  | .hdrWait => List.replicate (Machine.headerSize c - 1) 0
  | .payloadWait => [0]
  | .deliver chunk => chunk
  | .connected => [0]
  | .connError => [1]
  | .disconnected => [2]
  | .srcError => [3]
  | .reset => [1]
  | .encHdr h => Machine.encodeHeader c h
  | .decHdr bytes => bytes
  | .encReq t st n => markedBytes c t st n
  | .encReqText t st x => markedBytes c t st (Config.encText x).length ++ Config.encText x

/-- The view a table row's word is decoded in, by the row's width and the marker (assumption 11). -/
def tableView (c : Config) (nbits : Nat) (bytes : List Byte) : Option View :=
  if nbits = 1 then some .resetPin
  else if nbits = 2 then some .port
  else if nbits % 8 ≠ 0 then none
  else if nbits / 8 = 1 then some .chunk
  else if nbits / 8 = 2 then some (.rsm .resync 0)
  else if nbits / 8 = Machine.headerSize c - 1 then some (.rsm .awaitHeader 0)
  else if nbits / 8 = Machine.headerSize c then
    some (if Machine.markerMatches c bytes then .frame else .rsm .awaitHeader 0)
  else if nbits / 8 = Machine.headerSize c + 1 then some (.codec .encReqText)
  else none

/-- The wire bytes of a table row's word: wire byte 0 in the most significant eight bits (30_encoding.md R52, R65). -/
def tableBytes (nbits w : Nat) : List Byte := Machine.wireBytes ((nbits + 7) / 8) w

/-- The operation a table row's word stands for, at any parameters. -/
def tableInstr (c : Config) (nbits w : Nat) : Option Instr :=
  match tableView c nbits (tableBytes nbits w) with
  | none => none
  | some v => (decode c v (tableBytes nbits w)).toOption

/-- The operation the decoder reads from a table row's word, at the default parameters the table is written for. -/
def decodeTableWord (nbits w : Nat) : Option Instr := tableInstr Config.default nbits w

end Sys2Proof
end

