-- ==== Sys2Proof/Machine/Select.lean ====
section
/-! DEFINITION. What the next step runs: what the outside asks for; else the one enabled transition; else the event at
the head of `inq` if it can be taken; else the wait (41_reassembler.md R89, 60_exceptions.md R138, R130). And how a
state is set up so that a given operation is what the next step runs. -/

namespace Sys2Proof.Machine

/-- The operation a call from the outside stands for. -/
def callRow : Call → Instr
  | .reset => .reset
  | .encHdr h => .encHdr h
  | .decHdr bytes => .decHdr bytes
  | .encReq t st n => .encReq t st n
  | .encReqText t st text => .encReqText t st text

/-- The operation an input event stands for. -/
def eventRow : Event → Instr
  | .deliver chunk => .deliver chunk
  | .connected => .connected
  | .connError => .connError
  | .disconnected => .disconnected
  | .srcError => .srcError

/-- The reassembler row that applies: the decoder's reading of the buffered bytes in the present mode. -/
def State.rsmRow (s : State) : Instr := Sys2Proof.rsmRow s.cfg s.mode s.cur.length s.buf

/-- At quiescence: the event at the head of `inq` if it can be taken, else the wait (60_exceptions.md R138). -/
def State.quietRow (s : State) : Instr :=
  match s.inq with
  | [] => s.rsmRow
  | e :: _ => if s.eventFits e then eventRow e else s.rsmRow

/-- The operation the next step runs. -/
def State.nextRow (s : State) : Instr :=
  match s.call with
  | some c => callRow c
  | none => if s.quiescent then s.quietRow else s.rsmRow

/-- No call, the slot Empty, the given flag and the given buffer: what a row that reads the head of `buf` needs. -/
def State.withBuffer (s : State) (resync : Bool) (buf : List Byte) : State :=
  { s with call := none, cur := Slot.empty, resync := resync, buf := buf }

/-- A complete frame pending: its header in the slot, `n` zero bytes of payload buffered (assumption 11). -/
def State.withFrame (s : State) (t st n : Nat) : State :=
  { s with
    call := none
    cur := { typeTag := t, status := st, length := n }
    resync := false
    buf := List.replicate n 0 }

/-- RSM quiescent and the given event at the head of `inq`. -/
def State.withEvent (s : State) (e : Event) : State :=
  { s.withBuffer false [] with inq := e :: s.inq }

/-- `s` set up so that the next step runs the operation `i`, read from `bytes` (assumption 11). -/
def State.place (s : State) (i : Instr) (bytes : List Byte) : State :=
  match i with
  | .getTime st n => s.withFrame s.cfg.tagGetTime st n
  | .getSize st n => s.withFrame s.cfg.tagGetSize st n
  | .getStat st n => s.withFrame s.cfg.tagGetStat st n
  | .setData st n => s.withFrame s.cfg.tagSetData st n
  | .clearData st n => s.withFrame s.cfg.tagClearData st n
  | .unknownKind t st n => s.withFrame t st n
  | .lenMismatch t st n => s.withFrame t st n
  | .nullHeader _ _ => s.withBuffer false bytes
  | .hdrAccept _ _ _ => s.withBuffer false bytes
  | .hdrNull _ _ => s.withBuffer false bytes
  | .hdrMismatch _ _ => s.withBuffer false bytes
  | .resyncSkip _ _ => s.withBuffer true bytes
  | .resyncFound => s.withBuffer true bytes
  | .resyncEnd => s.withBuffer true []
  | .dispatch => s.withFrame s.cfg.tagGetTime 0 bytes.length
  | .hdrWait => { s.withBuffer false bytes with inq := [] }
  | .payloadWait => { s.withFrame s.cfg.tagGetTime 0 (bytes.length + 1) with buf := bytes, inq := [] }
  | .deliver chunk => s.withEvent (.deliver chunk)
  | .connected => s.withEvent .connected
  | .connError => s.withEvent .connError
  | .disconnected => s.withEvent .disconnected
  | .srcError => s.withEvent .srcError
  | .reset => s.request .reset
  | .encHdr h => s.request (.encHdr h)
  | .decHdr b => s.request (.decHdr b)
  | .encReq t st n => s.request (.encReq t st n)
  | .encReqText t st text => s.request (.encReqText t st text)

/-- `s` set up so that the next step runs the operation of a table row's word. -/
def State.placeWord (s : State) (nbits w : Nat) : State :=
  match tableInstr s.cfg nbits w with
  | none => s
  | some i => s.place i (tableBytes nbits w)

end Sys2Proof.Machine
end

