-- ==== Sys2Proof/Machine/Step.lean ====
section
/-! DEFINITION. One step of FRS, and the state in which the next step runs a given word of the operation table. -/

namespace Sys2Proof.Machine

/-- One step: the operation that is next (Machine/Select.lean), run on the state with the outside's call taken off. -/
def step (s : State) : Host.Outcome State Fault Refusal := exec s.nextRow { s with call := none }

/-- `s` with everything set that the next step needs to run the operation of a table row's word (assumption 11). -/
def State.withFetchWord (s : State) (nbits w : Nat) : State := s.placeWord nbits w

end Sys2Proof.Machine
end

