-- ==== Sys2Proof/Machine/Drain.lean ====
section
/-! DEFINITION. The iteration of 41_reassembler.md R90: transitions one after another until RSM is quiescent. -/

namespace Sys2Proof.Machine

/-- At most `n` transitions, stopping at quiescence. -/
def drainWithin : Nat → State → Host.Outcome State Fault Refusal
  | 0, s => .next s
  | n + 1, s =>
    if s.quiescent then .next s
    else
      match step s with
      | .next t => drainWithin n t
      | .fault f => .fault f
      | .refused r => .refused r

/-- `drain` (41_reassembler.md R90): over `n` buffered bytes it takes at most `3 * n + 2` transitions. -/
def State.drain (s : State) : Host.Outcome State Fault Refusal := drainWithin (3 * s.buf.length + 2) s

end Sys2Proof.Machine
end

