-- ==== Sys2Proof/Machine/System.lean ====
section
/-! DEFINITION. Several connections: one instance of FRS each, which share the parameters and nothing else
(10_state.md R27, 60_exceptions.md R134). Nothing orders the steps of one against those of another: which instance
steps next is an argument (assumption 22). -/

namespace Sys2Proof.Machine

/-- A system of several connections. -/
structure System where
  /-- The parameters all instances share (10_state.md R27). -/
  cfg : Config
  /-- The instances, one for each connection. -/
  instances : List State
  deriving DecidableEq, Repr

/-- Every instance has the system's parameters (10_state.md R27). -/
abbrev System.shared (sys : System) : Prop := ∀ s ∈ sys.instances, s.cfg = sys.cfg

/-- A system of `n` connections right after reset at given parameters. -/
def System.resetWith (c : Config) (n : Nat) : System where
  cfg := c
  instances := List.replicate n (State.resetWith c)

/-- Instance `k` replaced. -/
def System.setInstance (sys : System) (k : Nat) (t : State) : System :=
  { sys with instances := sys.instances.set k t }

/-- A step of instance `k`: none where the parameters are not shared, where there is no such instance, or where its
step is refused. -/
def System.stepAt (sys : System) (k : Nat) : Option System :=
  if sys.shared then
    match sys.instances[k]? with
    | none => none
    | some s =>
      match step s with
      | .next t => some (sys.setInstance k t)
      | .fault _ => none
      | .refused _ => none
  else none

end Sys2Proof.Machine
end

