-- ==== Sys2Proof/Machine/Status.lean ====
section
/-! DEFINITION. The optional read-only status read-out (10_state.md R18) and the condition taxonomy
(60_exceptions.md R129). Pure reads: no rule depends on them. -/

namespace Sys2Proof.Machine

/-- `st_mode`: 0 AWAIT_HEADER, 1 RESYNC, 2 AWAIT_PAYLOAD. -/
def State.stMode (s : State) : BitVec 2 :=
  match s.mode with
  | .awaitHeader => 0
  | .resync => 1
  | .awaitPayload => 2

/-- `st_typeTag`, `TW` bits. -/
def State.stTypeTag (s : State) : BitVec (8 * s.cfg.tb) := BitVec.ofNat _ s.cur.typeTag

/-- `st_status`, `SW` bits. -/
def State.stStatus (s : State) : BitVec (8 * s.cfg.sb) := BitVec.ofNat _ s.cur.status

/-- `st_length`, `LW` bits. -/
def State.stLength (s : State) : BitVec (8 * s.cfg.lb) := BitVec.ofNat _ s.cur.length

/-- `st_avail`, the `bytesAvailable()` value. -/
def State.stAvail (s : State) : Nat := s.buf.length

/-- `st_idle`: 1 when RSM is quiescent. -/
def State.stIdle (s : State) : Bool := decide s.quiescent

/-- The condition classes of 60_exceptions.md R129. -/
inductive Condition where
  | insufficient
  | alignment
  | unknownKind
  | srcError
  | connFailure
  | lenMismatch
  deriving DecidableEq, Repr

/-- The codes of 60_exceptions.md R129, without meaning outside the spec. -/
def conditionCode : Condition → Nat
  | .insufficient => 0
  | .alignment => 1
  | .unknownKind => 2
  | .srcError => 3
  | .connFailure => 4
  | .lenMismatch => 5

/-- The condition an operation raises, if any (the column "raised by" of 60_exceptions.md R129). -/
def conditionRaised (c : Config) : Instr → Option Condition
  | .getTime _ _ => none
  | .getSize _ n => if n = 4 then none else some .lenMismatch
  | .getStat _ _ => none
  | .setData _ _ => none
  | .clearData _ n => if n = 0 then none else some .lenMismatch
  | .unknownKind _ _ _ => some .unknownKind
  | .lenMismatch _ _ _ => some .lenMismatch
  | .nullHeader _ _ => none
  | .hdrAccept _ _ _ => none
  | .hdrNull _ _ => none
  | .hdrMismatch _ _ => some .alignment
  | .resyncSkip _ _ => none
  | .resyncFound => none
  | .resyncEnd => none
  | .dispatch => none
  | .hdrWait => some .insufficient
  | .payloadWait => some .insufficient
  | .deliver _ => none
  | .connected => none
  | .connError => some .connFailure
  | .disconnected => some .connFailure
  | .srcError => some .srcError
  | .reset => none
  | .encHdr _ => none
  | .decHdr bytes => if bytes.length < headerSize c then some .insufficient else none
  | .encReq _ _ _ => none
  | .encReqText _ _ _ => none

/-- The condition an output item records (the column "what is recorded" of 60_exceptions.md R129). -/
def conditionOfItem : Item → Option Condition
  | .frame _ _ => none
  | .evConnected => none
  | .evConnError => some .connFailure
  | .evDisconnected => some .connFailure
  | .report .srcError => some .srcError
  | .report (.lenMismatch _ _) => some .lenMismatch
  | .evTime _ _ => none
  | .evFreeSize _ _ => none
  | .evStats _ _ => none
  | .evSetDataReply _ _ => none
  | .evClearAck _ => none

end Sys2Proof.Machine
end

