-- ==== Sys2Proof/Safety.lean ====
section
/-! DEFINITION. The terms claims are made in: the invariant of 10_state.md R16, where an operation is enabled, runs and
their end (00_scope.md R9), the blocked state of 70_reset_and_hazards.md R149, the drain measure (41_reassembler.md
R90), and the frames a byte stream holds (41_reassembler.md R94). -/

namespace Sys2Proof.Machine

/-- INV1 (10_state.md R16). -/
abbrev State.Inv1 (s : State) : Prop := s.cur.typeTag ≠ 0 → s.resync = false

/-- INV2 (10_state.md R16). -/
abbrev State.Inv2 (s : State) : Prop := s.cur.typeTag = 0 → s.cur.status = 0 ∧ s.cur.length = 0

/-- INV3 (10_state.md R16): `|buf| <= BUF_CAP` when `BUF_CAP` is finite. -/
abbrev State.Inv3 (s : State) : Prop := s.buf.wf s.cfg = true

/-- The registers hold values of their widths (10_state.md R11 to R13). -/
abbrev State.RegistersFit (s : State) : Prop := fieldsFit s.cfg s.cur.typeTag s.cur.status s.cur.length = true

/-- The ghost law `buf = drop(consumed, arrived)` (10_state.md R26). -/
abbrev State.GhostLaw (s : State) : Prop := s.buf = s.arrived.drop s.consumed

/-- What an item of the output trace must satisfy: a frame has a valid header and exactly `length` payload bytes
(10_state.md R20, 42_dispatcher.md R108), an event carries a status of `SW` bits, a length report names a mismatch. -/
def itemOk (c : Config) : Item → Bool
  | .frame h p => h.valid c && decide (p.length = h.length)
  | .evConnected => true
  | .evConnError => true
  | .evDisconnected => true
  | .report .srcError => true
  | .report (.lenMismatch t n) => isLenMismatch c t n
  | .evTime st _ => statusFits c st
  | .evFreeSize st _ => statusFits c st
  | .evStats st _ => statusFits c st
  | .evSetDataReply st _ => statusFits c st
  | .evClearAck st => statusFits c st

/-- Every item emitted so far is in order. -/
abbrev State.OutOk (s : State) : Prop := ∀ x ∈ s.out, itemOk s.cfg x = true

/-- The invariant of FRS. -/
abbrev State.Inv (s : State) : Prop :=
  s.cfg.wf = true ∧ s.Inv1 ∧ s.Inv2 ∧ s.Inv3 ∧ s.RegistersFit ∧ s.GhostLaw ∧ s.OutOk

/-- The nine rows of 41_reassembler.md R80 to R88. -/
def isRsmRow : Instr → Bool
  | .getTime _ _ => false
  | .getSize _ _ => false
  | .getStat _ _ => false
  | .setData _ _ => false
  | .clearData _ _ => false
  | .unknownKind _ _ _ => false
  | .lenMismatch _ _ _ => false
  | .nullHeader _ _ => false
  | .hdrAccept _ _ _ => true
  | .hdrNull _ _ => true
  | .hdrMismatch _ _ => true
  | .resyncSkip _ _ => true
  | .resyncFound => true
  | .resyncEnd => true
  | .dispatch => true
  | .hdrWait => true
  | .payloadWait => true
  | .deliver _ => false
  | .connected => false
  | .connError => false
  | .disconnected => false
  | .srcError => false
  | .reset => false
  | .encHdr _ => false
  | .decHdr _ => false
  | .encReq _ _ _ => false
  | .encReqText _ _ _ => false

/-- The FRAME rows that are performed inside DISPATCH: all but NULL_HEADER. -/
def isDispatchedRow : Instr → Bool
  | .getTime _ _ => true
  | .getSize _ _ => true
  | .getStat _ _ => true
  | .setData _ _ => true
  | .clearData _ _ => true
  | .unknownKind _ _ _ => true
  | .lenMismatch _ _ _ => true
  | .nullHeader _ _ => false
  | .hdrAccept _ _ _ => false
  | .hdrNull _ _ => false
  | .hdrMismatch _ _ => false
  | .resyncSkip _ _ => false
  | .resyncFound => false
  | .resyncEnd => false
  | .dispatch => false
  | .hdrWait => false
  | .payloadWait => false
  | .deliver _ => false
  | .connected => false
  | .connError => false
  | .disconnected => false
  | .srcError => false
  | .reset => false
  | .encHdr _ => false
  | .decHdr _ => false
  | .encReq _ _ _ => false
  | .encReqText _ _ _ => false

/-- The codec functions. -/
def isCodecRow : Instr → Bool
  | .getTime _ _ => false
  | .getSize _ _ => false
  | .getStat _ _ => false
  | .setData _ _ => false
  | .clearData _ _ => false
  | .unknownKind _ _ _ => false
  | .lenMismatch _ _ _ => false
  | .nullHeader _ _ => false
  | .hdrAccept _ _ _ => false
  | .hdrNull _ _ => false
  | .hdrMismatch _ _ => false
  | .resyncSkip _ _ => false
  | .resyncFound => false
  | .resyncEnd => false
  | .dispatch => false
  | .hdrWait => false
  | .payloadWait => false
  | .deliver _ => false
  | .connected => false
  | .connError => false
  | .disconnected => false
  | .srcError => false
  | .reset => false
  | .encHdr _ => true
  | .decHdr _ => true
  | .encReq _ _ _ => true
  | .encReqText _ _ _ => true

/-- Where an operation is enabled: its guard as its rule gives it. -/
def State.enabled (s : State) : Instr → Prop
  | .getTime st n => s.frameGuard s.cfg.tagGetTime st n
  | .getSize st n => s.frameGuard s.cfg.tagGetSize st n
  | .getStat st n => s.frameGuard s.cfg.tagGetStat st n
  | .setData st n => s.frameGuard s.cfg.tagSetData st n
  | .clearData st n => s.frameGuard s.cfg.tagClearData st n
  | .unknownKind t st n => s.frameGuard t st n ∧ isUnknownTag s.cfg t = true
  | .lenMismatch t st n => s.frameGuard t st n ∧ isLenMismatch s.cfg t n = true
  | .nullHeader st n => s.hdrNullGuard st n
  | .hdrAccept t st n => s.hdrAcceptGuard t st n
  | .hdrNull st n => s.hdrNullGuard st n
  | .hdrMismatch b0 b1 => s.hdrMismatchGuard b0 b1
  | .resyncSkip b0 b1 => s.resyncSkipGuard b0 b1
  | .resyncFound => s.resyncFoundGuard
  | .resyncEnd => s.resyncEndGuard
  | .dispatch => s.dispatchGuard
  | .hdrWait => s.hdrWaitGuard
  | .payloadWait => s.payloadWaitGuard
  | .deliver chunk => s.takeGuard (.deliver chunk)
  | .connected => s.takeGuard .connected
  | .connError => s.takeGuard .connError
  | .disconnected => s.takeGuard .disconnected
  | .srcError => s.takeGuard .srcError
  | .reset => True
  | .encHdr h => h.wellTyped s.cfg = true
  | .decHdr _ => True
  | .encReq t st n => fieldsFit s.cfg t st n = true
  | .encReqText t st x => fieldsFit s.cfg t st (Config.encText x).length = true

/-- `n` steps, stopping at the first refusal. -/
def runSteps : Nat → State → Host.Outcome State Fault Refusal
  | 0, s => .next s
  | n + 1, s =>
    match step s with
    | .next t => runSteps n t
    | .fault f => .fault f
    | .refused r => .refused r

/-- The capacity deadlock: a pending length above a finite `BUF_CAP`, whatever is buffered and whatever is queued
(70_reset_and_hazards.md R149, 93_implementation_defined.md U9). -/
abbrev State.deadlocked (s : State) : Prop := s.mode = .awaitPayload ∧ withinCapacity s.cfg s.cur.length = false

/-- A run is at its end: the input queue is empty and RSM is quiescent (00_scope.md R9), nothing is asked for, and the
state is not the stuck one, which is not final (70_reset_and_hazards.md R149). -/
abbrev State.final (s : State) : Prop := s.call = none ∧ s.inq = [] ∧ s.quiescent ∧ ¬ s.deadlocked

/-- A step in the spec's sense, in which a wait is none: `s` goes to `t` by a transition, an event or a call
(41_reassembler.md R87 to R89, assumption 9). -/
def State.takes (s t : State) : Prop := s.nextRow ≠ .hdrWait ∧ s.nextRow ≠ .payloadWait ∧ step s = .next t

/-- RSM waits and the event at the head of `inq` does not fit: back-pressure (20_memory.md R35). -/
def State.blocked (s : State) : Prop :=
  s.call = none ∧ s.quiescent ∧ ∃ e, s.inq.head? = some e ∧ s.eventFits e = false

/-- `rank(mode)` (41_reassembler.md R90). -/
def modeRank : Mode → Nat
  | .awaitHeader => 0
  | .resync => 1
  | .awaitPayload => 2

/-- The quantity that falls with every transition (41_reassembler.md R90). -/
def State.drainMeasure (s : State) : Nat := 3 * s.buf.length + modeRank s.mode

/-- How many bytes an operation takes off the head of `buf` (10_state.md R21, 41_reassembler.md R93). -/
def State.cursorAdvance (s : State) : Instr → Nat
  | .getTime _ _ => s.cur.length
  | .getSize _ _ => s.cur.length
  | .getStat _ _ => s.cur.length
  | .setData _ _ => s.cur.length
  | .clearData _ _ => s.cur.length
  | .unknownKind _ _ _ => s.cur.length
  | .lenMismatch _ _ _ => s.cur.length
  | .nullHeader _ _ => s.headerSize
  | .hdrAccept _ _ _ => s.headerSize
  | .hdrNull _ _ => s.headerSize
  | .hdrMismatch _ _ => 1
  | .resyncSkip _ _ => 1
  | .resyncFound => 0
  | .resyncEnd => 0
  | .dispatch => s.cur.length
  | .hdrWait => 0
  | .payloadWait => 0
  | .deliver _ => 0
  | .connected => 0
  | .connError => 0
  | .disconnected => 0
  | .srcError => 0
  | .reset => 0
  | .encHdr _ => 0
  | .decHdr _ => 0
  | .encReq _ _ _ => 0
  | .encReqText _ _ _ => 0

/-- `frames(s)` of 41_reassembler.md R94, its recursion bounded by `n`. -/
def framesWithin (c : Config) : Nat → List Byte → List (Header × List Byte)
  | 0, _ => []
  | n + 1, s =>
    if s.length < headerSize c then []
    else if markerMatches c s then
      let h := headerAt c s
      let rest := s.drop (headerSize c)
      if h.typeTag = 0 then framesWithin c n rest
      else if rest.length < h.length then []
      else (h, rest.take h.length) :: framesWithin c n (rest.drop h.length)
    else framesWithin c n (s.drop 1)

/-- `frames(s)` of 41_reassembler.md R94: the frames a byte stream holds. Every round drops a byte, so `|s|` rounds are
enough. -/
def frames (c : Config) (s : List Byte) : List (Header × List Byte) := framesWithin c s.length s

/-- The frame an item is, if it is one. -/
def frameOfItem : Item → Option (Header × List Byte)
  | .frame h p => some (h, p)
  | .evConnected => none
  | .evConnError => none
  | .evDisconnected => none
  | .report _ => none
  | .evTime _ _ => none
  | .evFreeSize _ _ => none
  | .evStats _ _ => none
  | .evSetDataReply _ _ => none
  | .evClearAck _ => none

/-- The FRAME items of an output trace. -/
def framesOf (out : List Item) : List (Header × List Byte) := out.filterMap frameOfItem

/-- What a frame puts into the output trace: its FRAME item and the dispatcher's item behind it. -/
def itemsOfFrame (c : Config) (f : Header × List Byte) : List Item := .frame f.1 f.2 :: dsp c f.1 f.2

/-- The frames still to come from a state when the bytes `future` follow those buffered (41_reassembler.md R94). -/
def State.framesToCome (s : State) (future : List Byte) : List (Header × List Byte) :=
  let stream := s.buf ++ future
  if s.mode = .awaitPayload then
    if stream.length < s.cur.length then []
    else (s.pendingHeader, stream.take s.cur.length) :: frames s.cfg (stream.drop s.cur.length)
  else frames s.cfg stream

/-- An item with its status taken out: what a claim that `status` is opaque compares. -/
def Item.eraseStatus : Item → Item
  | .frame h p => .frame { h with status := 0 } p
  | .evConnected => .evConnected
  | .evConnError => .evConnError
  | .evDisconnected => .evDisconnected
  | .report r => .report r
  | .evTime _ raw => .evTime 0 raw
  | .evFreeSize _ v => .evFreeSize 0 v
  | .evStats _ raw => .evStats 0 raw
  | .evSetDataReply _ raw => .evSetDataReply 0 raw
  | .evClearAck _ => .evClearAck 0

/-- Which operation emits which item (the table of 10_state.md R20). -/
def emits : Instr → Item → Bool
  | i, .frame _ _ => isDispatchedRow i || i = .dispatch
  | i, .evConnected => i = .connected
  | i, .evConnError => i = .connError
  | i, .evDisconnected => i = .disconnected
  | i, .report .srcError => i = .srcError
  | i, .report (.lenMismatch _ _) => isDispatchedRow i || i = .dispatch
  | i, .evTime _ _ => isDispatchedRow i || i = .dispatch
  | i, .evFreeSize _ _ => isDispatchedRow i || i = .dispatch
  | i, .evStats _ _ => isDispatchedRow i || i = .dispatch
  | i, .evSetDataReply _ _ => isDispatchedRow i || i = .dispatch
  | i, .evClearAck _ => isDispatchedRow i || i = .dispatch

end Sys2Proof.Machine
end

