-- ==== Sys2Proof/Certificates/Slice0/Obligations.lean ====
section
/-! DEFINITION. The statements for the provers. Every one is about every state and every configuration that meets its
hypotheses; none rests on a default parameter but the decoding of the written-out words of the operation table. -/

open Sys2Proof Sys2Proof.Machine

/-! ### Bytes, marker, header codec -/

/-- `B(n, .)` and `U` are inverse to each other in either byte order (00_scope.md R6). -/
def Obligations.BytesAndValuesAreInverse : Prop :=
  ∀ (c : Config),
    (∀ n v : Nat, v < 256 ^ n → (bytesOf c n v).length = n ∧ valueOf c (bytesOf c n v) = v) ∧
    (∀ s : List Byte, valueOf c s < 256 ^ s.length ∧ bytesOf c s.length (valueOf c s) = s)

/-- 30_encoding.md R54: the two wire bytes are `B(2, MARKER)`, and the predicate is the comparison of the first two
bytes, which is the same as comparing their value with MARKER. -/
def Obligations.MarkerMatchIsFirstTwoBytes : Prop :=
  ∀ (c : Config) (s : List Byte),
    [markerByte0 c, markerByte1 c] = bytesOf c 2 c.marker.toNat ∧
    (markerMatches c s = true ↔ 2 ≤ s.length ∧ s[0]? = some (markerByte0 c) ∧ s[1]? = some (markerByte1 c)) ∧
    (markerMatches c s = true ↔ 2 ≤ s.length ∧ valueOf c (s.take 2) = c.marker.toNat)

/-- 40_header_codec.md R72 (a) to (e), for every configuration and both byte orders. Clause (e): a decoder in the other
byte order gives the header back only where every field's bytes read the same both ways. -/
def Obligations.HeaderCodecLaws : Prop :=
  ∀ c : Config, c.wf = true →
    (∀ h : Header, h.wellTyped c = true → decodeHeader c (encodeHeader c h) = some (h, headerSize c)) ∧
    (∀ s : List Byte, s.length = headerSize c →
      ∃ h, decodeHeader c s = some (h, headerSize c) ∧ h.wellTyped c = true ∧ encodeHeader c h = s) ∧
    (∀ h : Header, (encodeHeader c h).length = headerSize c) ∧
    (∀ h k : Header, h.wellTyped c = true → k.wellTyped c = true → encodeHeader c h = encodeHeader c k → h = k) ∧
    (∀ (o : ByteOrder) (h : Header), o ≠ c.order → h.wellTyped c = true →
      decodeHeader { c with order := o } (encodeHeader c h) = some (h, headerSize c) →
      (bytesOf c 2 h.marker.toNat).reverse = bytesOf c 2 h.marker.toNat ∧
      (bytesOf c c.tb h.typeTag).reverse = bytesOf c c.tb h.typeTag ∧
      (bytesOf c c.sb h.status).reverse = bytesOf c c.sb h.status ∧
      (bytesOf c c.lb h.length).reverse = bytesOf c c.lb h.length)

/-- 30_encoding.md R52: wire byte `k` of a flat vector stands at bits `8*(H-1-k)+7 : 8*(H-1-k)`, and in BIG order the
vector is the four fields side by side, the marker most significant. -/
def Obligations.FlatVectorBitPositions : Prop :=
  (∀ (s : List Byte) (k : Nat) (hk : k < s.length),
    flatVector s / 2 ^ (8 * (s.length - 1 - k)) % 2 ^ 8 = (s[k]).toNat) ∧
  (∀ (n hv : Nat), hv < 2 ^ (8 * n) → (wireBytes n hv).length = n ∧ flatVector (wireBytes n hv) = hv) ∧
  (∀ (c : Config) (h : Header), c.order = .big → h.wellTyped c = true →
    flatVector (encodeHeader c h)
      = ((h.marker.toNat * 2 ^ (8 * c.tb) + h.typeTag) * 2 ^ (8 * c.sb) + h.status) * 2 ^ (8 * c.lb) + h.length)

/-- 40_header_codec.md R70: ENC_HDR gives the four fields' bytes in order and changes nothing else. -/
def Obligations.EncHdrGivesFieldBytes : Prop :=
  ∀ (s : State) (h : Header), s.cfg.wf = true → h.wellTyped s.cfg = true →
    exec (.encHdr h) s = .next { s with
      ret := some (.bytes (bytesOf s.cfg 2 h.marker.toNat ++ bytesOf s.cfg s.cfg.tb h.typeTag
        ++ bytesOf s.cfg s.cfg.sb h.status ++ bytesOf s.cfg s.cfg.lb h.length)) }

/-- 40_header_codec.md R71: DEC_HDR gives `InsufficientData` on fewer than `H` bytes, else the header its first `H`
bytes hold, with `H` bytes taken; bytes beyond them never matter. -/
def Obligations.DecHdrReadsFirstBytes : Prop :=
  ∀ (s : State) (b : List Byte), s.cfg.wf = true →
    (b.length < 2 + s.cfg.tb + s.cfg.sb + s.cfg.lb →
      exec (.decHdr b) s = .next { s with ret := some .insufficientData }) ∧
    (2 + s.cfg.tb + s.cfg.sb + s.cfg.lb ≤ b.length →
      exec (.decHdr b) s = .next { s with
        ret := some (.header
          { marker := BitVec.ofNat 16 (valueOf s.cfg (b.take 2))
            typeTag := valueOf s.cfg ((b.drop 2).take s.cfg.tb)
            status := valueOf s.cfg ((b.drop (2 + s.cfg.tb)).take s.cfg.sb)
            length := valueOf s.cfg ((b.drop (2 + s.cfg.tb + s.cfg.sb)).take s.cfg.lb) }
          (2 + s.cfg.tb + s.cfg.sb + s.cfg.lb)) }) ∧
    (∀ x : List Byte, 2 + s.cfg.tb + s.cfg.sb + s.cfg.lb ≤ b.length →
      exec (.decHdr (b ++ x)) s = exec (.decHdr b) s)

/-- 40_header_codec.md R74: ENC_REQ is ENC_HDR with `marker = MARKER`. -/
def Obligations.EncReqSuppliesMarker : Prop :=
  ∀ (s : State) (t st n : Nat), s.cfg.wf = true → fieldsFit s.cfg t st n = true →
    exec (.encReq t st n) s = .next { s with
      ret := some (.bytes (encodeHeader s.cfg { marker := s.cfg.marker, typeTag := t, status := st, length := n })) }

/-- 40_header_codec.md R75: ENC_REQ_TEXT is ENC_REQ with the encoded payload's byte count, then the payload, and it is
refused exactly where the encoded payload `p` has `256^LB` bytes or more, at any well-typed tag and status.
`encReqPayload` is the operation at an encoded text `p`, so that the refusal is stated of every `p`. -/
def Obligations.EncReqTextCountsPayload : Prop :=
  (∀ (s : State) (t st : Nat) (x : List Byte), s.cfg.wf = true →
    fieldsFit s.cfg t st (Config.encText x).length = true →
    exec (.encReqText t st x) s = .next { s with
      ret := some (.bytes (encodeHeader s.cfg
        { marker := s.cfg.marker, typeTag := t, status := st, length := (Config.encText x).length }
        ++ Config.encText x)) }) ∧
  (∀ (s : State) (t st : Nat) (p : List Byte), s.cfg.wf = true → tagFits s.cfg t = true → statusFits s.cfg st = true →
    (encReqPayload t st p s = .refused .textTooLong ↔ 256 ^ s.cfg.lb ≤ p.length)) ∧
  (∀ (s : State) (t st : Nat) (x : List Byte),
    exec (.encReqText t st x) s = encReqPayload t st (Config.encText x) s)

/-- 20_memory.md R46: a codec function at any point of a run changes nothing of the machine but the place its result is
handed back in (the model's own, assumption 5). -/
def Obligations.CodecLeavesMachineAlone : Prop :=
  ∀ (i : Instr) (s t : State), isCodecRow i = true → exec i s = .next t →
    t.cfg = s.cfg ∧ t.buf = s.buf ∧ t.cur = s.cur ∧ t.resync = s.resync ∧ t.inq = s.inq ∧ t.out = s.out ∧
    t.arrived = s.arrived ∧ t.call = s.call ∧ (∀ k, t.buf.readByte k = s.buf.readByte k)

/-! ### The input buffer -/

/-- 20_memory.md R33, R34, R36: a read of `n` bytes at an offset is defined exactly where they are buffered and takes
nothing away; an append changes no byte below the old end and puts its own bytes behind them in order; a consume
removes the `n` oldest and shifts the rest. -/
def Obligations.BufferPrimitives : Prop :=
  ∀ (m : Memory) (x : List Byte) (off n k : Nat),
    ((∃ s, m.read off n = some s) ↔ off + n ≤ m.length) ∧
    (∀ s, m.read off n = some s → s.length = n ∧ (∀ i < n, s[i]? = m.readByte (off + i)) ∧
      (m.append x).read off n = some s) ∧
    (m.append x).readByte k = (if k < m.length then m.readByte k else x[k - m.length]?) ∧
    (n ≤ m.length → (m.consume n).length = m.length - n ∧ (m.consume n).readByte k = m.readByte (n + k))

/-! ### Decoding -/

/-- Decoding an encoded well-formed operation gives it back, with every operand at every value, at every configuration;
ENC_REQ_TEXT's text by the inverse of 42_dispatcher.md R103. -/
def Obligations.DecodeOfEncodeIsIdentity : Prop :=
  ∀ (c : Config) (i : Instr), c.wf = true → i.wf c = true →
    decode c (viewOf i) (encode c i) = .ok i

/-- Where each word has one meaning, encoding what was decoded gives the word back: the header bytes of a frame, a
request or a codec operand, a chunk, a port code. -/
def Obligations.EncodeOfDecodeIsTheWord : Prop :=
  ∀ (c : Config) (s : List Byte) (i : Instr), c.wf = true →
    (decode c .frame s = .ok i → encode c i = s.take (headerSize c)) ∧
    (decode c (.codec .encHdr) s = .ok i → encode c i = s.take (headerSize c)) ∧
    (decode c (.codec .encReq) s = .ok i → encode c i = s.take (headerSize c)) ∧
    (decode c (.codec .decHdr) s = .ok i → encode c i = s) ∧
    (decode c .chunk s = .ok i → encode c i = s) ∧
    (decode c .port s = .ok i → encode c i = s) ∧
    (decode c .resetPin s = .ok i → encode c i = s)

/-- What the decoder gives is well-formed (ENC_REQ_TEXT aside, whose text is uninterpreted). -/
def Obligations.DecodedOperationsAreWellFormed : Prop :=
  ∀ (c : Config) (v : View) (s : List Byte) (i : Instr), c.wf = true → v ≠ .codec .encReqText →
    decode c v s = .ok i → i.wf c = true

/-- Words written out from the patterns of spec/opcode_table.json decode to their rows (30_encoding.md R50, R65). -/
def Obligations.WrittenOutWordsDecode : Prop :=
  decodeTableWord 72 0xAB1200640700000008 = some (.getTime 7 8) ∧
  decodeTableWord 72 0xAB1200650000000004 = some (.getSize 0 4) ∧
  decodeTableWord 72 0xAB1200C90100000000 = some (.clearData 1 0) ∧
  decodeTableWord 72 0xAB1277770300000002 = some (.unknownKind 30583 3 2) ∧
  decodeTableWord 72 0xAB1200650000000002 = some (.lenMismatch 101 0 2) ∧
  decodeTableWord 72 0xAB1200000900000002 = some (.nullHeader 9 2) ∧
  decodeTableWord 16 0xAB12 = some .resyncFound ∧
  decodeTableWord 16 0xABAB = some (.resyncSkip 0xAB 0xAB) ∧
  decode Config.default (.rsm .awaitHeader 0) [0xAB, 0x12, 0x00, 0xC8, 0x01, 0x00, 0x00, 0x01, 0x02]
    = .ok (.hdrAccept 200 1 258) ∧
  decode Config.default (.codec .encHdr) [0x12, 0x34, 0x56, 0x78, 0x9A, 0xBC, 0xDE, 0xF0, 0x12]
    = .ok (.encHdr { marker := 0x1234, typeTag := 0x5678, status := 0x9A, length := 0xBCDEF012 })

/-! ### The reassembler's transitions and waits -/

/-- 41_reassembler.md R80: a marked header with a nonzero tag is consumed whole and becomes the pending header. -/
def Obligations.HdrAcceptFillsSlot : Prop :=
  ∀ (s : State) (b0 b1 : Byte) (f rest : List Byte) (t st n : Nat), s.cfg.wf = true → s.mode = .awaitHeader →
    b0 = markerByte0 s.cfg → b1 = markerByte1 s.cfg →
    s.buf = b0 :: b1 :: f ++ rest → f.length = s.cfg.tb + s.cfg.sb + s.cfg.lb →
    t = valueOf s.cfg (f.take s.cfg.tb) → st = valueOf s.cfg ((f.drop s.cfg.tb).take s.cfg.sb) →
    n = valueOf s.cfg (f.drop (s.cfg.tb + s.cfg.sb)) → t ≠ 0 →
    exec (.hdrAccept t st n) s = .next { s with buf := rest, cur := { typeTag := t, status := st, length := n } }

/-- 41_reassembler.md R81, both rows that stand for it: a marked header with the reserved tag 0 is consumed whole and
has no other effect; its status and length are dropped. -/
def Obligations.NullHeaderIsConsumed : Prop :=
  ∀ (s : State) (b0 b1 : Byte) (f rest : List Byte) (st n : Nat), s.cfg.wf = true → s.mode = .awaitHeader →
    b0 = markerByte0 s.cfg → b1 = markerByte1 s.cfg →
    s.buf = b0 :: b1 :: f ++ rest → f.length = s.cfg.tb + s.cfg.sb + s.cfg.lb →
    valueOf s.cfg (f.take s.cfg.tb) = 0 → st = valueOf s.cfg ((f.drop s.cfg.tb).take s.cfg.sb) →
    n = valueOf s.cfg (f.drop (s.cfg.tb + s.cfg.sb)) →
    exec (.hdrNull st n) s = .next { s with buf := rest } ∧
    exec (.nullHeader st n) s = .next { s with buf := rest }

/-- 41_reassembler.md R82: a whole candidate that does not begin the marker loses one byte, and the scan starts. -/
def Obligations.HdrMismatchDropsOneByte : Prop :=
  ∀ (s : State) (b0 b1 : Byte) (rest : List Byte), s.cfg.wf = true → s.mode = .awaitHeader →
    s.buf = b0 :: b1 :: rest → 2 + s.cfg.tb + s.cfg.sb + s.cfg.lb ≤ s.buf.length →
    ¬ (b0 = markerByte0 s.cfg ∧ b1 = markerByte1 s.cfg) →
    exec (.hdrMismatch b0 b1) s = .next { s with buf := b1 :: rest, resync := true }

/-- 41_reassembler.md R83: a scan drops exactly one byte of a pair that is not the marker. -/
def Obligations.ResyncSkipDropsOneByte : Prop :=
  ∀ (s : State) (b0 b1 : Byte) (rest : List Byte), s.cfg.wf = true → s.mode = .resync →
    s.buf = b0 :: b1 :: rest → ¬ (b0 = markerByte0 s.cfg ∧ b1 = markerByte1 s.cfg) →
    exec (.resyncSkip b0 b1) s = .next { s with buf := b1 :: rest }

/-- 41_reassembler.md R84: the marker at the head ends the scan, nothing consumed. -/
def Obligations.ResyncFoundClearsFlag : Prop :=
  ∀ (s : State) (rest : List Byte), s.cfg.wf = true → s.mode = .resync →
    s.buf = markerByte0 s.cfg :: markerByte1 s.cfg :: rest →
    exec .resyncFound s = .next { s with resync := false }

/-- 41_reassembler.md R85: fewer than two bytes end the scan, nothing consumed. -/
def Obligations.ResyncEndKeepsLastByte : Prop :=
  ∀ s : State, s.cfg.wf = true → s.mode = .resync → s.buf.length < 2 →
    exec .resyncEnd s = .next { s with resync := false }

/-- 41_reassembler.md R86: exactly `cur.length` bytes are handed over with the rebuilt header, the dispatcher's items
follow the FRAME item, and the slot is cleared, in one step and whatever the bytes are. -/
def Obligations.DispatchHandsOverFrame : Prop :=
  ∀ (s : State) (p rest : List Byte), s.cfg.wf = true → s.mode = .awaitPayload → s.buf = p ++ rest →
    p.length = s.cur.length →
    exec .dispatch s = .next { s with
      buf := rest
      cur := { typeTag := 0, status := 0, length := 0 }
      out := s.out ++ .frame { marker := s.cfg.marker, typeTag := s.cur.typeTag, status := s.cur.status,
                               length := s.cur.length } p
        :: dsp s.cfg { marker := s.cfg.marker, typeTag := s.cur.typeTag, status := s.cur.status,
                       length := s.cur.length } p }

/-- 41_reassembler.md R87, R88: in a wait no state changes and no transition is enabled; a delivery lifts it exactly
where it brings the occupancy to the header size, or to the pending length; CONNECTED, DISCONNECTED and reset leave
HDR_WAIT with an empty buffer. -/
def Obligations.WaitsChangeNothing : Prop :=
  ∀ s : State, s.cfg.wf = true →
    (s.mode = .awaitHeader → s.buf.length < 2 + s.cfg.tb + s.cfg.sb + s.cfg.lb →
      exec .hdrWait s = .next s ∧
      (∀ i, isRsmRow i = true → i ≠ .hdrWait → ¬ s.enabled i) ∧
      (∀ (c : List Byte) (t : State), exec (.deliver c) s = .next t →
        (t.quiescent ↔ s.buf.length + c.length < 2 + s.cfg.tb + s.cfg.sb + s.cfg.lb))) ∧
    (s.mode = .awaitPayload → s.buf.length < s.cur.length →
      exec .payloadWait s = .next s ∧
      (∀ i, isRsmRow i = true → i ≠ .payloadWait → ¬ s.enabled i) ∧
      (∀ (c : List Byte) (t : State), exec (.deliver c) s = .next t →
        t.cur = s.cur ∧ (t.quiescent ↔ s.buf.length + c.length < s.cur.length))) ∧
    (∀ (i : Instr) (t : State), i = .connected ∨ i = .disconnected ∨ i = .reset → exec i s = .next t →
      t.hdrWaitGuard ∧ t.buf = [])

/-! ### Frame rows -/

/-- 42_dispatcher.md R100, R102, R103: the three kinds whose payload layout is open pass the raw bytes on, with the
status, directly behind the FRAME item; what the bytes mean is `decTime`, `decStat` and `decText` of them, and `decText`
is the inverse of `encText`. That the frame row is the whole of its DISPATCH, with the consumption, the FRAME item and
the cleared slot of 41_reassembler.md R86, is assumption 6. -/
def Obligations.OpenKindsPassRawBytes : Prop :=
  (∀ (st : Nat) (p : List Byte), (Item.evTime st p).meaning = some (Config.decTime p) ∧
    (Item.evStats st p).meaning = some (Config.decStat p) ∧
    (Item.evSetDataReply st p).meaning = some (Config.decText p)) ∧
  (∀ t : List Byte, Config.decText (Config.encText t) = t) ∧
  ∀ (s : State) (st n : Nat) (p rest : List Byte), s.cfg.wf = true → s.buf = p ++ rest → p.length = n →
    (s.cur = { typeTag := s.cfg.tagGetTime, status := st, length := n } →
      exec (.getTime st n) s = .next { s with
        buf := rest
        cur := { typeTag := 0, status := 0, length := 0 }
        out := s.out ++ [.frame { marker := s.cfg.marker, typeTag := s.cfg.tagGetTime, status := st, length := n } p,
          .evTime st p] }) ∧
    (s.cur = { typeTag := s.cfg.tagGetStat, status := st, length := n } →
      exec (.getStat st n) s = .next { s with
        buf := rest
        cur := { typeTag := 0, status := 0, length := 0 }
        out := s.out ++ [.frame { marker := s.cfg.marker, typeTag := s.cfg.tagGetStat, status := st, length := n } p,
          .evStats st p] }) ∧
    (s.cur = { typeTag := s.cfg.tagSetData, status := st, length := n } →
      exec (.setData st n) s = .next { s with
        buf := rest
        cur := { typeTag := 0, status := 0, length := 0 }
        out := s.out ++ [.frame { marker := s.cfg.marker, typeTag := s.cfg.tagSetData, status := st, length := n } p,
          .evSetDataReply st p] })

/-- 42_dispatcher.md R101: four bytes are an unsigned value in BYTE_ORDER; any other length is a report. -/
def Obligations.GetSizeDecodesFourBytes : Prop :=
  ∀ (s : State) (st n : Nat) (p rest : List Byte), s.cfg.wf = true → s.buf = p ++ rest → p.length = n →
    s.cur = { typeTag := s.cfg.tagGetSize, status := st, length := n } →
    (n = 4 → exec (.getSize st n) s = .next { s with
        buf := rest
        cur := { typeTag := 0, status := 0, length := 0 }
        out := s.out ++ [.frame { marker := s.cfg.marker, typeTag := s.cfg.tagGetSize, status := st, length := n } p,
          .evFreeSize st (BitVec.ofNat 32 (valueOf s.cfg p))] } ∧
      (BitVec.ofNat 32 (valueOf s.cfg p)).toNat = valueOf s.cfg p) ∧
    (n ≠ 4 → exec (.getSize st n) s = .next { s with
        buf := rest
        cur := { typeTag := 0, status := 0, length := 0 }
        out := s.out ++ [.frame { marker := s.cfg.marker, typeTag := s.cfg.tagGetSize, status := st, length := n } p,
          .report (.lenMismatch s.cfg.tagGetSize n)] })

/-- 42_dispatcher.md R104: an empty payload is acknowledged; any other length is a report. -/
def Obligations.ClearDataAcknowledgesEmpty : Prop :=
  ∀ (s : State) (st n : Nat) (p rest : List Byte), s.cfg.wf = true → s.buf = p ++ rest → p.length = n →
    s.cur = { typeTag := s.cfg.tagClearData, status := st, length := n } →
    (n = 0 → exec (.clearData st n) s = .next { s with
        buf := rest
        cur := { typeTag := 0, status := 0, length := 0 }
        out := s.out ++ [.frame { marker := s.cfg.marker, typeTag := s.cfg.tagClearData, status := st, length := n } p,
          .evClearAck st] }) ∧
    (n ≠ 0 → exec (.clearData st n) s = .next { s with
        buf := rest
        cur := { typeTag := 0, status := 0, length := 0 }
        out := s.out ++ [.frame { marker := s.cfg.marker, typeTag := s.cfg.tagClearData, status := st, length := n } p,
          .report (.lenMismatch s.cfg.tagClearData n)] })

/-- 42_dispatcher.md R105: a frame of unknown kind is consumed and its FRAME item emitted; the dispatcher emits
nothing. -/
def Obligations.UnknownKindEmitsNoEvent : Prop :=
  ∀ (s : State) (t st n : Nat) (p rest : List Byte), s.cfg.wf = true → s.buf = p ++ rest → p.length = n →
    s.cur = { typeTag := t, status := st, length := n } → t ≠ 0 → t ∉ s.cfg.tags →
    exec (.unknownKind t st n) s = .next { s with
      buf := rest
      cur := { typeTag := 0, status := 0, length := 0 }
      out := s.out ++ [.frame { marker := s.cfg.marker, typeTag := t, status := st, length := n } p] }

/-- 42_dispatcher.md R106: GET_SIZE with a length other than 4 and CLEAR_DATA with a length other than 0 give a report
with the tag and the length, no typed event; the payload is consumed all the same. -/
def Obligations.LenMismatchReports : Prop :=
  ∀ (s : State) (t st n : Nat) (p rest : List Byte), s.cfg.wf = true → s.buf = p ++ rest → p.length = n →
    s.cur = { typeTag := t, status := st, length := n } →
    (t = s.cfg.tagGetSize ∧ n ≠ 4 ∨ t = s.cfg.tagClearData ∧ n ≠ 0) →
    exec (.lenMismatch t st n) s = .next { s with
      buf := rest
      cur := { typeTag := 0, status := 0, length := 0 }
      out := s.out ++ [.frame { marker := s.cfg.marker, typeTag := t, status := st, length := n } p,
        .report (.lenMismatch t n)] }

/-- 42_dispatcher.md R108: DISPATCH of a pending frame is the frame row the decoder selects for its header, at every
tag; the dispatcher gives at most one item. -/
def Obligations.DispatchRunsTheFrameRow : Prop :=
  (∀ s : State, s.cfg.wf = true → s.dispatchGuard →
    exec .dispatch s = exec (kindRow s.cfg s.cur.typeTag s.cur.status s.cur.length) s ∧
    isDispatchedRow (kindRow s.cfg s.cur.typeTag s.cur.status s.cur.length) = true) ∧
  (∀ (c : Config) (h : Header) (p : List Byte), (dsp c h p).length ≤ 1)

/-! ### Input events and reset -/

/-- 41_reassembler.md R91: a delivery that can be taken leaves the queue and its chunk is appended at the tail, and the
drain that follows ends in a quiescent state with no further event taken (the drain is the steps that follow, assumption
3); an empty chunk has no effect but its removal. -/
def Obligations.DeliveryAppendsAndDrains : Prop :=
  ∀ (s : State) (chunk : List Byte) (rest : List Event), s.cfg.wf = true →
    s.inq = .deliver chunk :: rest → s.quiescent →
    (∀ cap, s.cfg.bufCap = some cap → s.buf.length + chunk.length ≤ cap) →
    exec (.deliver chunk) s = .next { s with
      inq := rest, buf := s.buf ++ chunk, arrived := s.arrived ++ chunk } ∧
    (s.call = none →
      step s = exec (.deliver chunk) s ∧
      ∃ t, State.drain { s with inq := rest, buf := s.buf ++ chunk, arrived := s.arrived ++ chunk } = .next t ∧
        t.quiescent ∧ t.inq = rest ∧ (chunk = [] → t = { s with inq := rest }))

/-- 60_exceptions.md R125: CONNECTED clears buffer, slot and flag and is forwarded. -/
def Obligations.ConnectedClearsAndForwards : Prop :=
  ∀ (s : State) (rest : List Event), s.cfg.wf = true → s.inq = .connected :: rest → s.quiescent →
    exec .connected s = .next { s with
      inq := rest, buf := [], cur := { typeTag := 0, status := 0, length := 0 }, resync := false, arrived := []
      out := s.out ++ [.evConnected] }

/-- 60_exceptions.md R126: DISCONNECTED clears buffer, slot and flag and is forwarded; the queue is not cleared. -/
def Obligations.DisconnectedClearsAndForwards : Prop :=
  ∀ (s : State) (rest : List Event), s.cfg.wf = true → s.inq = .disconnected :: rest → s.quiescent →
    exec .disconnected s = .next { s with
      inq := rest, buf := [], cur := { typeTag := 0, status := 0, length := 0 }, resync := false, arrived := []
      out := s.out ++ [.evDisconnected] }

/-- 60_exceptions.md R128: CONN_ERROR is forwarded and changes no state. -/
def Obligations.ConnErrorOnlyForwards : Prop :=
  ∀ (s : State) (rest : List Event), s.cfg.wf = true → s.inq = .connError :: rest → s.quiescent →
    exec .connError s = .next { s with inq := rest, out := s.out ++ [.evConnError] }

/-- 60_exceptions.md R127: SRC_ERROR is reported and changes no state. -/
def Obligations.SrcErrorOnlyReports : Prop :=
  ∀ (s : State) (rest : List Event), s.cfg.wf = true → s.inq = .srcError :: rest → s.quiescent →
    exec .srcError s = .next { s with inq := rest, out := s.out ++ [.report .srcError] }

/-- 70_reset_and_hazards.md R140: reset acts in any state, whether or not RSM is quiescent and whatever is queued,
clears the queue too and emits nothing. That a reset asked for from outside is what the next step runs is the last
clause of StepRunsTheDecodedRow (assumption 4). -/
def Obligations.ResetActsAtAnyTime : Prop :=
  ∀ s : State, s.cfg.wf = true →
    exec .reset s = .next { s with
      buf := [], cur := { typeTag := 0, status := 0, length := 0 }, resync := false, inq := [], arrived := [] }

/-- 10_state.md R24: what reset, CONNECTED and DISCONNECTED leave, and the state a run starts from, at any parameters.
`inq` loses only the event that was taken. -/
def Obligations.ResetValues : Prop :=
  (∀ c : Config, (State.resetWith c).cfg = c ∧ (State.resetWith c).cur = { typeTag := 0, status := 0, length := 0 } ∧
    (State.resetWith c).resync = false ∧ (State.resetWith c).mode = .awaitHeader ∧ (State.resetWith c).buf = [] ∧
    (State.resetWith c).inq = [] ∧ (State.resetWith c).out = []) ∧
  (∀ (i : Instr) (s t : State), i = .reset ∨ i = .connected ∨ i = .disconnected → exec i s = .next t →
    t.cur = { typeTag := 0, status := 0, length := 0 } ∧ t.resync = false ∧ t.mode = .awaitHeader ∧ t.buf = [] ∧
    t.cfg = s.cfg ∧ s.out <+: t.out) ∧
  (∀ s t : State, exec .reset s = .next t → t.inq = [] ∧ t.out = s.out) ∧
  (∀ (i : Instr) (s t : State), i = .connected ∨ i = .disconnected → exec i s = .next t → t.inq = s.inq.tail)

/-- 70_reset_and_hazards.md R141: after reset RSM is quiescent in AWAIT_HEADER with nothing to do, and the first thing
that can happen is the taking of an input event. -/
def Obligations.AfterResetAnEventIsTaken : Prop :=
  ∀ c : Config, c.wf = true →
    (State.resetWith c).final ∧ step (State.resetWith c) = .next (State.resetWith c) ∧
    ∀ e : Event, (State.resetWith c).eventFits e = true →
      step ((State.resetWith c).issue e) = exec (eventRow e) ((State.resetWith c).issue e) ∧
      ∃ t, step ((State.resetWith c).issue e) = .next t ∧ t.inq = []

/-! ### The status read-out and the conditions -/

/-- 10_state.md R18: the status values read the state as the table says, at registers that hold values of their
widths, and have the table's values after reset. -/
def Obligations.StatusReadOut : Prop :=
  (∀ c : Config, c.wf = true → (State.resetWith c).stMode = 0 ∧ (State.resetWith c).stTypeTag = 0 ∧
    (State.resetWith c).stStatus = 0 ∧ (State.resetWith c).stLength = 0 ∧ (State.resetWith c).stAvail = 0 ∧
    (State.resetWith c).stIdle = true) ∧
  ∀ s : State, s.RegistersFit →
    (s.stMode = 0 ↔ s.mode = .awaitHeader) ∧ (s.stMode = 1 ↔ s.mode = .resync) ∧
    (s.stMode = 2 ↔ s.mode = .awaitPayload) ∧ s.stMode ≠ 3 ∧
    s.stTypeTag.toNat = s.cur.typeTag ∧ s.stStatus.toNat = s.cur.status ∧ s.stLength.toNat = s.cur.length ∧
    s.stAvail = s.buf.length ∧ (s.stIdle = true ↔ s.quiescent)

/-- 60_exceptions.md R129: codes 0, 1 and 2 never appear outside: an operation that raises one of them emits no item
that records a condition, and what the other operations record is the condition they raise. -/
def Obligations.ConditionsRecordedOutside : Prop :=
  ∀ (i : Instr) (s t : State), i ≠ .dispatch → exec i s = .next t →
    ∃ items, t.out = s.out ++ items ∧
      items.filterMap conditionOfItem =
        ((conditionRaised s.cfg i).filter (fun k => decide (3 ≤ conditionCode k))).toList

/-! ### The machine as a whole -/

/-- A step runs what the decoder reads: the reassembler row of the buffered bytes where RSM is not quiescent, or is
and no event can be taken; the event at the head of the queue where it can be; what the outside asks for, first of
all. -/
def Obligations.StepRunsTheDecodedRow : Prop :=
  ∀ (s : State) (i : Instr), decode s.cfg (.rsm s.mode s.cur.length) s.buf = .ok i →
    (s.call = none → ¬ s.quiescent → step s = exec i s) ∧
    (s.call = none → s.inq = [] → step s = exec i s) ∧
    (∀ (e : Event) (rest : List Event), s.call = none → s.quiescent → s.inq = e :: rest → s.eventFits e = true →
      step s = exec (eventRow e) s) ∧
    (∀ (e : Event) (rest : List Event), s.call = none → s.quiescent → s.inq = e :: rest → s.eventFits e = false →
      step s = exec i s) ∧
    (∀ k : Call, s.call = some k → step s = exec (callRow k) { s with call := none })

/-- The step of a state that holds a table row's word is the row's operation (30_encoding.md R65, assumption 11). -/
def Obligations.PlacedWordIsRunNext : Prop :=
  ∀ (s : State) (nbits w : Nat) (i : Instr), s.cfg.wf = true → tableInstr s.cfg nbits w = some i →
    step (s.withFetchWord nbits w) = exec i { s.withFetchWord nbits w with call := none }

/-- The model's choice (assumptions 8, 12, 13): an operation completes exactly where its guard holds, and is refused
elsewhere; at parameters that break 00_scope.md R4 or R5 every operation is refused. -/
def Obligations.OperationsRunWhereEnabled : Prop :=
  ∀ (i : Instr) (s : State),
    (s.cfg.wf = true →
      ((∃ t, exec i s = .next t) ↔ s.enabled i) ∧ (¬ s.enabled i → ∃ r, exec i s = .refused r)) ∧
    (s.cfg.wf = false → ∃ r, exec i s = .refused r)

/-- 41_reassembler.md R89: in every state exactly one of the nine conditions holds, and it is the row the step selects;
RSM is quiescent when it is one of the two waits, and otherwise takes it before any input event; RESYNC is never
quiescent. -/
def Obligations.ExactlyOneRowEnabled : Prop :=
  ∀ s : State, s.cfg.wf = true →
    (∃! i : Instr, isRsmRow i = true ∧ s.enabled i) ∧ (isRsmRow s.rsmRow = true ∧ s.enabled s.rsmRow) ∧
    (s.quiescent ↔ s.rsmRow = .hdrWait ∨ s.rsmRow = .payloadWait) ∧
    (s.call = none → ¬ s.quiescent → step s = exec s.rsmRow s) ∧ (s.mode = .resync → ¬ s.quiescent)

/-- 41_reassembler.md R92: whatever bytes are buffered and whatever is queued, a step answers a next state. -/
def Obligations.EveryStepCompletes : Prop :=
  ∀ s : State, s.cfg.wf = true → (∀ k, s.call = some k → s.enabled (callRow k)) → ∃ t, step s = .next t

/-- 10_state.md R16, with the widths of R11 to R13, the ghost law of R26 and the output items of R20: the invariant
holds after every step from every state in which it holds. -/
def Obligations.StepKeepsInvariant : Prop :=
  ∀ s t : State, s.Inv → step s = .next t → t.Inv

/-- The invariant holds after reset, at any well-formed parameters. -/
def Obligations.InvariantHoldsAtReset : Prop :=
  ∀ c : Config, c.wf = true → (State.resetWith c).Inv

/-- 20_memory.md R45: no operation changes a parameter. -/
def Obligations.ParametersNeverChange : Prop :=
  ∀ (i : Instr) (s t : State), exec i s = .next t → t.cfg = s.cfg

/-- 20_memory.md R34, R40 and 10_state.md R21: a reassembler or frame row takes exactly its stated number of bytes off
the head, leaves every other byte as it was, and touches neither the queue nor the outside's fields. -/
def Obligations.TransitionsConsumeStatedBytes : Prop :=
  ∀ (i : Instr) (s t : State),
    isRsmRow i = true ∨ isDispatchedRow i = true ∨ (∃ st n, i = .nullHeader st n) → exec i s = .next t →
    s.cursorAdvance i ≤ s.buf.length ∧ t.buf = s.buf.drop (s.cursorAdvance i) ∧
    (∀ k, t.buf.readByte k = s.buf.readByte (s.cursorAdvance i + k)) ∧
    t.inq = s.inq ∧ t.arrived = s.arrived ∧ t.call = s.call ∧ t.ret = s.ret

/-- 10_state.md R15, R23: which operations write the slot and which write the flag; every other operation leaves them
as they were. -/
def Obligations.SlotAndFlagWriters : Prop :=
  ∀ (i : Instr) (s t : State), exec i s = .next t →
    (t.cur ≠ s.cur → (∃ a b n, i = .hdrAccept a b n) ∨ i = .dispatch ∨ isDispatchedRow i = true ∨
      i = .connected ∨ i = .disconnected ∨ i = .reset) ∧
    (t.resync ≠ s.resync → (∃ a b, i = .hdrMismatch a b ∧ t.resync = true) ∨
      (t.resync = false ∧ (i = .resyncFound ∨ i = .resyncEnd ∨ i = .connected ∨ i = .disconnected ∨ i = .reset)))

/-- 10_state.md R20: every item comes from the operation the table names, and the trace only grows. -/
def Obligations.ItemsComeFromTheirOperations : Prop :=
  ∀ (i : Instr) (s t : State), exec i s = .next t →
    ∃ items, t.out = s.out ++ items ∧ items.length ≤ 2 ∧ ∀ x ∈ items, emits i x = true

/-- 41_reassembler.md R93: the mode changes of the seven transitions are those of the table, from states that meet
INV1. -/
def Obligations.ModeChangesOfTheGraph : Prop :=
  ∀ (s t : State), s.Inv1 →
    (∀ a b n, exec (.hdrAccept a b n) s = .next t → s.mode = .awaitHeader ∧ t.mode = .awaitPayload) ∧
    (∀ b n, exec (.hdrNull b n) s = .next t → s.mode = .awaitHeader ∧ t.mode = .awaitHeader) ∧
    (∀ b0 b1, exec (.hdrMismatch b0 b1) s = .next t → s.mode = .awaitHeader ∧ t.mode = .resync) ∧
    (∀ b0 b1, exec (.resyncSkip b0 b1) s = .next t → s.mode = .resync ∧ t.mode = .resync) ∧
    (exec .resyncFound s = .next t → s.mode = .resync ∧ t.mode = .awaitHeader) ∧
    (exec .resyncEnd s = .next t → s.mode = .resync ∧ t.mode = .awaitHeader) ∧
    (exec .dispatch s = .next t → s.mode = .awaitPayload ∧ t.mode = .awaitHeader) ∧
    (∀ i, i = .connected ∨ i = .disconnected ∨ i = .reset → exec i s = .next t → t.mode = .awaitHeader)

/-- 60_exceptions.md R138: a step takes an event off the queue only where RSM is quiescent, takes the one at the head,
and performs its rule. -/
def Obligations.EventsTakenOnlyAtQuiescence : Prop :=
  ∀ s t : State, s.call = none → step s = .next t → t.inq ≠ s.inq →
    s.quiescent ∧ ∃ e, s.inq = e :: t.inq ∧ s.eventFits e = true ∧ exec (eventRow e) s = .next t

/-- 20_memory.md R41, 60_exceptions.md R130: an event the environment issues while there is something to do neither
changes what the step does nor is changed by it: it only waits at the tail of the queue. -/
def Obligations.IssuedEventOnlyWaits : Prop :=
  ∀ (s t : State) (e : Event), s.call ≠ some .reset → (s.call ≠ none ∨ ¬ s.quiescent ∨ s.inq ≠ []) →
    step s = .next t → step (s.issue e) = .next (t.issue e)

/-- 41_reassembler.md R90: the measure falls with every transition, so a drain over `n` buffered bytes ends in a
quiescent state within `3 * n + 2` of them, no input event taken meanwhile. -/
def Obligations.DrainTerminates : Prop :=
  (∀ s t : State, s.cfg.wf = true → s.call = none → ¬ s.quiescent → step s = .next t →
    t.drainMeasure < s.drainMeasure) ∧
  (∀ s : State, s.cfg.wf = true → s.call = none →
    ∃ k t, k ≤ 3 * s.buf.length + 2 ∧ runSteps k s = .next t ∧ s.drain = .next t ∧ t.quiescent ∧
      t.inq = s.inq ∧ t.call = none)

/-- 41_reassembler.md R94, one transition: what has been emitted and what is still to come, whatever bytes follow, are
together the same before and after. -/
def Obligations.TransitionKeepsFramesToCome : Prop :=
  ∀ (s t : State) (future : List Byte), s.cfg.wf = true → s.call = none → ¬ s.quiescent → step s = .next t →
    framesOf t.out ++ t.framesToCome future = framesOf s.out ++ s.framesToCome future

/-- 41_reassembler.md R94, chunking independence: from any cleared state, however a byte stream is cut into deliveries,
the run ends, and what it has emitted is the frames of the stream, each with the dispatcher's item behind it: a function
of the stream alone. -/
def Obligations.ChunkingIndependence : Prop :=
  ∀ (s : State) (chunks : List (List Byte)), s.cfg.wf = true → s.cfg.bufCap = none → s.call = none →
    s.cur = Slot.empty → s.resync = false → s.buf = [] → s.inq = chunks.map Event.deliver →
    ∃ k t, runSteps k s = .next t ∧ t.final ∧
      t.out = s.out ++ (frames s.cfg chunks.flatten).flatMap (itemsOfFrame s.cfg) ∧
      framesOf t.out = framesOf s.out ++ frames s.cfg chunks.flatten

/-- 70_reset_and_hazards.md R147: garbage before a valid frame is discarded and the frame recovered unchanged, provided
the marker does not occur in the bytes at any index below the garbage's length. -/
def Obligations.ResyncRecoversFrame : Prop :=
  ∀ (s : State) (garbage p : List Byte) (h : Header), s.cfg.wf = true → s.call = none → s.inq = [] →
    s.cur = Slot.empty → s.resync = false → h.valid s.cfg = true → p.length = h.length →
    s.buf = garbage ++ (encodeHeader s.cfg h ++ p) →
    (∀ j < garbage.length, markerMatches s.cfg (s.buf.drop j) = false) →
    ∃ k t, runSteps k s = .next t ∧ t.final ∧ t.buf = [] ∧ t.out = s.out ++ itemsOfFrame s.cfg (h, p)

/-- 00_scope.md R9, 20_memory.md R35, 70_reset_and_hazards.md R149. A run at its end stays as it is. Where RSM waits and
the event at the head of the queue does not fit, no number of steps changes anything and the state is not final. The
capacity deadlock is not final whatever is queued, its payload never completes, and where no event can be taken there is
no step in the spec's sense, the model's being a wait (assumption 9). Any other step, an event that is taken or a codec
function, keeps the pending header, the deadlock and the frames emitted, unless it is CONNECTED, DISCONNECTED or RESET;
and those clear it. -/
def Obligations.WaitingStatesRest : Prop :=
  (∀ (s : State) (k : Nat), s.cfg.wf = true → s.final → runSteps k s = .next s) ∧
  (∀ (s : State) (k : Nat), s.cfg.wf = true → s.blocked → runSteps k s = .next s ∧ ¬ s.final) ∧
  (∀ s : State, s.cfg.wf = true → s.Inv3 → s.deadlocked →
    s.payloadWaitGuard ∧ ¬ s.final ∧
    (s.call = none → (∀ e, s.inq.head? = some e → s.eventFits e = false) →
      step s = .next s ∧ ∀ t, ¬ s.takes t) ∧
    (∀ t, step s = .next t → s.nextRow ≠ .connected → s.nextRow ≠ .disconnected → s.nextRow ≠ .reset →
      t.cur = s.cur ∧ t.deadlocked ∧ t.Inv3 ∧ framesOf t.out = framesOf s.out) ∧
    (∀ (e : Event) (rest : List Event), s.call = none → e = .connected ∨ e = .disconnected → s.inq = e :: rest →
      ∃ t, step s = .next t ∧ t.buf = [] ∧ t.mode = .awaitHeader ∧ ¬ t.deadlocked ∧ t.inq = rest) ∧
    (∃ t, step (s.request .reset) = .next t ∧ t.buf = [] ∧ t.mode = .awaitHeader ∧ ¬ t.deadlocked ∧ t.inq = []))

/-- 10_state.md R12, 30_encoding.md R60: the pending status is opaque: two states that differ only in it take the same
step, and differ after it at most in that status and in the statuses inside the items emitted. -/
def Obligations.StatusIsOpaque : Prop :=
  ∀ (s t t' : State) (x : Nat), s.call = none → step s = .next t →
    step { s with cur := { s.cur with status := x } } = .next t' →
    t'.cfg = t.cfg ∧ t'.cur.typeTag = t.cur.typeTag ∧ t'.cur.length = t.cur.length ∧ t'.resync = t.resync ∧
    t'.buf = t.buf ∧ t'.inq = t.inq ∧ t'.arrived = t.arrived ∧ t'.call = t.call ∧ t'.ret = t.ret ∧
    t'.out.map Item.eraseStatus = t.out.map Item.eraseStatus

/-- 10_state.md R20, R26: the output trace and the ghost are read by nothing: with other histories in their place, a
step does the same and emits the same items. -/
def Obligations.HistoryIsNeverRead : Prop :=
  ∀ (s t : State) (o : List Item) (a : List Byte), step s = .next t →
    ∃ (items : List Item) (a' : List Byte), t.out = s.out ++ items ∧
      step { s with out := o, arrived := a } = .next { t with out := o ++ items, arrived := a' }

/-- 10_state.md R27, 60_exceptions.md R134: instances share the parameters and nothing else: a system starts with them
shared and every step keeps them so; a step of one instance is a step of it alone, and leaves every other as it was. -/
def Obligations.InstancesAreIndependent : Prop :=
  (∀ (c : Config) (n : Nat), (System.resetWith c n).cfg = c ∧ (System.resetWith c n).shared ∧
    (System.resetWith c n).instances.length = n ∧ ∀ s ∈ (System.resetWith c n).instances, s = State.resetWith c) ∧
  (∀ (sys sys' : System) (k : Nat), sys.stepAt k = some sys' →
    sys'.cfg = sys.cfg ∧ sys.shared ∧ sys'.shared ∧
    sys'.instances.length = sys.instances.length ∧ (∀ j, j ≠ k → sys'.instances[j]? = sys.instances[j]?) ∧
    ∃ s t, sys.instances[k]? = some s ∧ step s = .next t ∧ sys'.instances[k]? = some t) ∧
  (∀ (sys : System) (k : Nat) (s t : State), sys.shared → sys.instances[k]? = some s → step s = .next t →
    ∃ sys', sys.stepAt k = some sys')
end

