-- ==== Sys2Proof/Laws/Bytes.lean ====
section
/-! SUPPORT. The byte-order functions: lengths, bounds, concatenation, and that the little-endian pair is inverse. With them
the one law of the text codecs. -/

/-- `decText` is the inverse of `encText` (42_dispatcher.md R103). -/
@[simp] theorem Sys2Proof.Config.decText_encText (t : List Sys2Proof.Byte) :
    Sys2Proof.Config.decText (Sys2Proof.Config.encText t) = t :=
  Sys2Proof.Config.textCodec.dec_enc t

namespace Sys2Proof.Machine

@[simp] theorem le_nil : le [] = 0 := rfl

theorem le_cons (b : Byte) (s : List Byte) : le (b :: s) = b.toNat + 256 * le s := rfl

@[simp] theorem be_nil : be [] = 0 := rfl

theorem be_cons (b : Byte) (s : List Byte) : be (b :: s) = b.toNat * 256 ^ s.length + be s := rfl

theorem be_append (s t : List Byte) : be (s ++ t) = be s * 256 ^ t.length + be t := by
  induction s with
  | nil => simp
  | cons b s ih => simp only [List.cons_append, be_cons, ih, List.length_append, pow_add]; ring

theorem le_append (s t : List Byte) : le (s ++ t) = le s + 256 ^ s.length * le t := by
  induction s with
  | nil => simp
  | cons b s ih => simp only [List.cons_append, le_cons, ih, List.length_cons, pow_succ]; ring

/-- Reading most significant byte first is reading the reversed bytes least significant first. -/
theorem be_eq_le_reverse (s : List Byte) : be s = le s.reverse := by
  induction s with
  | nil => rfl
  | cons b s ih => rw [List.reverse_cons, le_append, ← ih, be_cons, le_cons, List.length_reverse, le_nil]; ring

theorem le_lt (s : List Byte) : le s < 256 ^ s.length := by
  induction s with
  | nil => simp
  | cons b s ih =>
    have hb := b.isLt
    simp only [le_cons, List.length_cons, pow_succ]
    omega

theorem be_lt (s : List Byte) : be s < 256 ^ s.length := by
  simpa [be_eq_le_reverse] using le_lt s.reverse

@[simp] theorem leBytes_length (n v : Nat) : (leBytes n v).length = n := by
  induction n generalizing v with
  | zero => rfl
  | succ n ih => simp [leBytes, ih]

@[simp] theorem beBytes_length (n v : Nat) : (beBytes n v).length = n := by simp [beBytes]

@[simp] theorem bytesOf_length (c : Config) (n v : Nat) : (bytesOf c n v).length = n := by
  unfold bytesOf
  cases c.order <;> simp

theorem le_leBytes (n v : Nat) (h : v < 256 ^ n) : le (leBytes n v) = v := by
  induction n generalizing v with
  | zero => simp at h; simp [leBytes, h]
  | succ n ih =>
    have := ih (v / 256) (by rw [pow_succ] at h; omega)
    simp only [leBytes, le_cons, this, BitVec.toNat_ofNat]
    omega

theorem leBytes_le (s : List Byte) : leBytes s.length (le s) = s := by
  induction s with
  | nil => rfl
  | cons b s ih =>
    have hb := b.isLt
    have h1 : (b.toNat + 256 * le s) / 256 = le s := by omega
    have h2 : BitVec.ofNat 8 (b.toNat + 256 * le s) = b := by
      apply BitVec.eq_of_toNat_eq
      simp only [BitVec.toNat_ofNat]
      omega
    simp only [List.length_cons, leBytes, le_cons, h1, h2, ih]

@[simp] theorem encodeHeader_length (c : Config) (h : Header) : (encodeHeader c h).length = headerSize c := by
  simp [encodeHeader, headerSize]
  omega

/-- Only the first `H` bytes matter to field assembly (40_header_codec.md R71). -/
theorem headerAt_take (c : Config) (s : List Byte) : headerAt c (s.take (headerSize c)) = headerAt c s := by
  have h (off n : Nat) (hn : off + n ≤ headerSize c) : slice (s.take (headerSize c)) off n = slice s off n := by
    simp only [slice, List.drop_take, List.take_take]
    congr 1
    omega
  simp only [headerAt, typeOffset, statusOffset, lengthOffset]
  rw [h 0 2 (by simp [headerSize]; omega), h 2 c.tb (by simp [headerSize]; omega),
    h (2 + c.tb) c.sb (by simp only [headerSize]; omega), h (2 + c.tb + c.sb) c.lb (by simp [headerSize])]

theorem two_le_headerSize (c : Config) : 2 ≤ headerSize c := by unfold headerSize; omega

end Sys2Proof.Machine
end

