-- ==== Sys2Proof/Laws/State.lean ====
section
/-! SUPPORT. One lemma per field per update of the state, each true by definition, so that no proof unfolds a record
update; and the accessors of the state read through them. -/

namespace Sys2Proof.Machine

variable (s : State)

@[simp] theorem Slot.empty_typeTag : Slot.empty.typeTag = 0 := rfl
@[simp] theorem Slot.empty_status : Slot.empty.status = 0 := rfl
@[simp] theorem Slot.empty_length : Slot.empty.length = 0 := rfl

@[simp] theorem State.append_cfg (chunk : List Byte) : (s.append chunk).cfg = s.cfg := rfl
@[simp] theorem State.append_cur (chunk : List Byte) : (s.append chunk).cur = s.cur := rfl
@[simp] theorem State.append_resync (chunk : List Byte) : (s.append chunk).resync = s.resync := rfl
@[simp] theorem State.append_buf (chunk : List Byte) : (s.append chunk).buf = s.buf ++ chunk := rfl
@[simp] theorem State.append_inq (chunk : List Byte) : (s.append chunk).inq = s.inq := rfl
@[simp] theorem State.append_out (chunk : List Byte) : (s.append chunk).out = s.out := rfl
@[simp] theorem State.append_arrived (chunk : List Byte) : (s.append chunk).arrived = s.arrived ++ chunk := rfl
@[simp] theorem State.append_call (chunk : List Byte) : (s.append chunk).call = s.call := rfl
@[simp] theorem State.append_ret (chunk : List Byte) : (s.append chunk).ret = s.ret := rfl

@[simp] theorem State.consume_cfg (n : Nat) : (s.consume n).cfg = s.cfg := rfl
@[simp] theorem State.consume_cur (n : Nat) : (s.consume n).cur = s.cur := rfl
@[simp] theorem State.consume_resync (n : Nat) : (s.consume n).resync = s.resync := rfl
@[simp] theorem State.consume_buf (n : Nat) : (s.consume n).buf = s.buf.drop n := rfl
@[simp] theorem State.consume_inq (n : Nat) : (s.consume n).inq = s.inq := rfl
@[simp] theorem State.consume_out (n : Nat) : (s.consume n).out = s.out := rfl
@[simp] theorem State.consume_arrived (n : Nat) : (s.consume n).arrived = s.arrived := rfl
@[simp] theorem State.consume_call (n : Nat) : (s.consume n).call = s.call := rfl
@[simp] theorem State.consume_ret (n : Nat) : (s.consume n).ret = s.ret := rfl

@[simp] theorem State.emit_cfg (items : List Item) : (s.emit items).cfg = s.cfg := rfl
@[simp] theorem State.emit_cur (items : List Item) : (s.emit items).cur = s.cur := rfl
@[simp] theorem State.emit_resync (items : List Item) : (s.emit items).resync = s.resync := rfl
@[simp] theorem State.emit_buf (items : List Item) : (s.emit items).buf = s.buf := rfl
@[simp] theorem State.emit_inq (items : List Item) : (s.emit items).inq = s.inq := rfl
@[simp] theorem State.emit_out (items : List Item) : (s.emit items).out = s.out ++ items := rfl
@[simp] theorem State.emit_arrived (items : List Item) : (s.emit items).arrived = s.arrived := rfl
@[simp] theorem State.emit_call (items : List Item) : (s.emit items).call = s.call := rfl
@[simp] theorem State.emit_ret (items : List Item) : (s.emit items).ret = s.ret := rfl

@[simp] theorem State.setSlot_cfg (t st n : Nat) : (s.setSlot t st n).cfg = s.cfg := rfl
@[simp] theorem State.setSlot_cur (t st n : Nat) : (s.setSlot t st n).cur = { typeTag := t, status := st, length := n } := rfl
@[simp] theorem State.setSlot_resync (t st n : Nat) : (s.setSlot t st n).resync = s.resync := rfl
@[simp] theorem State.setSlot_buf (t st n : Nat) : (s.setSlot t st n).buf = s.buf := rfl
@[simp] theorem State.setSlot_inq (t st n : Nat) : (s.setSlot t st n).inq = s.inq := rfl
@[simp] theorem State.setSlot_out (t st n : Nat) : (s.setSlot t st n).out = s.out := rfl
@[simp] theorem State.setSlot_arrived (t st n : Nat) : (s.setSlot t st n).arrived = s.arrived := rfl
@[simp] theorem State.setSlot_call (t st n : Nat) : (s.setSlot t st n).call = s.call := rfl
@[simp] theorem State.setSlot_ret (t st n : Nat) : (s.setSlot t st n).ret = s.ret := rfl

@[simp] theorem State.clearSlot_cfg : (s.clearSlot).cfg = s.cfg := rfl
@[simp] theorem State.clearSlot_cur : (s.clearSlot).cur = Slot.empty := rfl
@[simp] theorem State.clearSlot_resync : (s.clearSlot).resync = s.resync := rfl
@[simp] theorem State.clearSlot_buf : (s.clearSlot).buf = s.buf := rfl
@[simp] theorem State.clearSlot_inq : (s.clearSlot).inq = s.inq := rfl
@[simp] theorem State.clearSlot_out : (s.clearSlot).out = s.out := rfl
@[simp] theorem State.clearSlot_arrived : (s.clearSlot).arrived = s.arrived := rfl
@[simp] theorem State.clearSlot_call : (s.clearSlot).call = s.call := rfl
@[simp] theorem State.clearSlot_ret : (s.clearSlot).ret = s.ret := rfl

@[simp] theorem State.clearConnection_cfg : (s.clearConnection).cfg = s.cfg := rfl
@[simp] theorem State.clearConnection_cur : (s.clearConnection).cur = Slot.empty := rfl
@[simp] theorem State.clearConnection_resync : (s.clearConnection).resync = false := rfl
@[simp] theorem State.clearConnection_buf : (s.clearConnection).buf = [] := rfl
@[simp] theorem State.clearConnection_inq : (s.clearConnection).inq = s.inq := rfl
@[simp] theorem State.clearConnection_out : (s.clearConnection).out = s.out := rfl
@[simp] theorem State.clearConnection_arrived : (s.clearConnection).arrived = [] := rfl
@[simp] theorem State.clearConnection_call : (s.clearConnection).call = s.call := rfl
@[simp] theorem State.clearConnection_ret : (s.clearConnection).ret = s.ret := rfl

@[simp] theorem State.dequeue_cfg : (s.dequeue).cfg = s.cfg := rfl
@[simp] theorem State.dequeue_cur : (s.dequeue).cur = s.cur := rfl
@[simp] theorem State.dequeue_resync : (s.dequeue).resync = s.resync := rfl
@[simp] theorem State.dequeue_buf : (s.dequeue).buf = s.buf := rfl
@[simp] theorem State.dequeue_inq : (s.dequeue).inq = s.inq.tail := rfl
@[simp] theorem State.dequeue_out : (s.dequeue).out = s.out := rfl
@[simp] theorem State.dequeue_arrived : (s.dequeue).arrived = s.arrived := rfl
@[simp] theorem State.dequeue_call : (s.dequeue).call = s.call := rfl
@[simp] theorem State.dequeue_ret : (s.dequeue).ret = s.ret := rfl

@[simp] theorem State.giveBack_cfg (r : Returned) : (s.giveBack r).cfg = s.cfg := rfl
@[simp] theorem State.giveBack_cur (r : Returned) : (s.giveBack r).cur = s.cur := rfl
@[simp] theorem State.giveBack_resync (r : Returned) : (s.giveBack r).resync = s.resync := rfl
@[simp] theorem State.giveBack_buf (r : Returned) : (s.giveBack r).buf = s.buf := rfl
@[simp] theorem State.giveBack_inq (r : Returned) : (s.giveBack r).inq = s.inq := rfl
@[simp] theorem State.giveBack_out (r : Returned) : (s.giveBack r).out = s.out := rfl
@[simp] theorem State.giveBack_arrived (r : Returned) : (s.giveBack r).arrived = s.arrived := rfl
@[simp] theorem State.giveBack_call (r : Returned) : (s.giveBack r).call = s.call := rfl
@[simp] theorem State.giveBack_ret (r : Returned) : (s.giveBack r).ret = some r := rfl

@[simp] theorem State.setResync_cfg : (s.setResync).cfg = s.cfg := rfl
@[simp] theorem State.setResync_cur : (s.setResync).cur = s.cur := rfl
@[simp] theorem State.setResync_resync : (s.setResync).resync = true := rfl
@[simp] theorem State.setResync_buf : (s.setResync).buf = s.buf := rfl
@[simp] theorem State.setResync_inq : (s.setResync).inq = s.inq := rfl
@[simp] theorem State.setResync_out : (s.setResync).out = s.out := rfl
@[simp] theorem State.setResync_arrived : (s.setResync).arrived = s.arrived := rfl
@[simp] theorem State.setResync_call : (s.setResync).call = s.call := rfl
@[simp] theorem State.setResync_ret : (s.setResync).ret = s.ret := rfl

@[simp] theorem State.clearResync_cfg : (s.clearResync).cfg = s.cfg := rfl
@[simp] theorem State.clearResync_cur : (s.clearResync).cur = s.cur := rfl
@[simp] theorem State.clearResync_resync : (s.clearResync).resync = false := rfl
@[simp] theorem State.clearResync_buf : (s.clearResync).buf = s.buf := rfl
@[simp] theorem State.clearResync_inq : (s.clearResync).inq = s.inq := rfl
@[simp] theorem State.clearResync_out : (s.clearResync).out = s.out := rfl
@[simp] theorem State.clearResync_arrived : (s.clearResync).arrived = s.arrived := rfl
@[simp] theorem State.clearResync_call : (s.clearResync).call = s.call := rfl
@[simp] theorem State.clearResync_ret : (s.clearResync).ret = s.ret := rfl

@[simp] theorem State.enterResync_cfg : (s.enterResync).cfg = s.cfg := rfl
@[simp] theorem State.enterResync_cur : (s.enterResync).cur = s.cur := rfl
@[simp] theorem State.enterResync_resync : (s.enterResync).resync = true := rfl
@[simp] theorem State.enterResync_buf : (s.enterResync).buf = s.buf.drop 1 := rfl
@[simp] theorem State.enterResync_inq : (s.enterResync).inq = s.inq := rfl
@[simp] theorem State.enterResync_out : (s.enterResync).out = s.out := rfl
@[simp] theorem State.enterResync_arrived : (s.enterResync).arrived = s.arrived := rfl
@[simp] theorem State.enterResync_call : (s.enterResync).call = s.call := rfl
@[simp] theorem State.enterResync_ret : (s.enterResync).ret = s.ret := rfl

@[simp] theorem State.leaveResync_cfg : (s.leaveResync).cfg = s.cfg := rfl
@[simp] theorem State.leaveResync_cur : (s.leaveResync).cur = s.cur := rfl
@[simp] theorem State.leaveResync_resync : (s.leaveResync).resync = false := rfl
@[simp] theorem State.leaveResync_buf : (s.leaveResync).buf = s.buf := rfl
@[simp] theorem State.leaveResync_inq : (s.leaveResync).inq = s.inq := rfl
@[simp] theorem State.leaveResync_out : (s.leaveResync).out = s.out := rfl
@[simp] theorem State.leaveResync_arrived : (s.leaveResync).arrived = s.arrived := rfl
@[simp] theorem State.leaveResync_call : (s.leaveResync).call = s.call := rfl
@[simp] theorem State.leaveResync_ret : (s.leaveResync).ret = s.ret := rfl

@[simp] theorem State.issue_cfg (e : Event) : (s.issue e).cfg = s.cfg := rfl
@[simp] theorem State.issue_cur (e : Event) : (s.issue e).cur = s.cur := rfl
@[simp] theorem State.issue_resync (e : Event) : (s.issue e).resync = s.resync := rfl
@[simp] theorem State.issue_buf (e : Event) : (s.issue e).buf = s.buf := rfl
@[simp] theorem State.issue_inq (e : Event) : (s.issue e).inq = s.inq ++ [e] := rfl
@[simp] theorem State.issue_out (e : Event) : (s.issue e).out = s.out := rfl
@[simp] theorem State.issue_arrived (e : Event) : (s.issue e).arrived = s.arrived := rfl
@[simp] theorem State.issue_call (e : Event) : (s.issue e).call = s.call := rfl
@[simp] theorem State.issue_ret (e : Event) : (s.issue e).ret = s.ret := rfl

@[simp] theorem State.request_cfg (c : Call) : (s.request c).cfg = s.cfg := rfl
@[simp] theorem State.request_cur (c : Call) : (s.request c).cur = s.cur := rfl
@[simp] theorem State.request_resync (c : Call) : (s.request c).resync = s.resync := rfl
@[simp] theorem State.request_buf (c : Call) : (s.request c).buf = s.buf := rfl
@[simp] theorem State.request_inq (c : Call) : (s.request c).inq = s.inq := rfl
@[simp] theorem State.request_out (c : Call) : (s.request c).out = s.out := rfl
@[simp] theorem State.request_arrived (c : Call) : (s.request c).arrived = s.arrived := rfl
@[simp] theorem State.request_call (c : Call) : (s.request c).call = some c := rfl
@[simp] theorem State.request_ret (c : Call) : (s.request c).ret = s.ret := rfl

@[simp] theorem State.handOver_cfg (items : List Item) : (s.handOver items).cfg = s.cfg := rfl
@[simp] theorem State.handOver_cur (items : List Item) : (s.handOver items).cur = Slot.empty := rfl
@[simp] theorem State.handOver_resync (items : List Item) : (s.handOver items).resync = s.resync := rfl
@[simp] theorem State.handOver_buf (items : List Item) : (s.handOver items).buf = s.buf.drop s.cur.length := rfl
@[simp] theorem State.handOver_inq (items : List Item) : (s.handOver items).inq = s.inq := rfl
@[simp] theorem State.handOver_out (items : List Item) : (s.handOver items).out = s.out ++ .frame s.pendingHeader s.pendingPayload :: items := rfl
@[simp] theorem State.handOver_arrived (items : List Item) : (s.handOver items).arrived = s.arrived := rfl
@[simp] theorem State.handOver_call (items : List Item) : (s.handOver items).call = s.call := rfl
@[simp] theorem State.handOver_ret (items : List Item) : (s.handOver items).ret = s.ret := rfl

@[simp] theorem State.resetWith_cfg (c : Config) : (State.resetWith c).cfg = c := rfl
@[simp] theorem State.resetWith_cur (c : Config) : (State.resetWith c).cur = Slot.empty := rfl
@[simp] theorem State.resetWith_resync (c : Config) : (State.resetWith c).resync = false := rfl
@[simp] theorem State.resetWith_buf (c : Config) : (State.resetWith c).buf = [] := rfl
@[simp] theorem State.resetWith_inq (c : Config) : (State.resetWith c).inq = [] := rfl
@[simp] theorem State.resetWith_out (c : Config) : (State.resetWith c).out = [] := rfl
@[simp] theorem State.resetWith_arrived (c : Config) : (State.resetWith c).arrived = [] := rfl
@[simp] theorem State.resetWith_call (c : Config) : (State.resetWith c).call = none := rfl
@[simp] theorem State.resetWith_ret (c : Config) : (State.resetWith c).ret = none := rfl

theorem State.mode_eq_awaitPayload_iff : s.mode = .awaitPayload ↔ s.cur.typeTag ≠ 0 := by
  unfold State.mode
  by_cases h : s.cur.typeTag = 0 <;> cases hr : s.resync <;> simp [h]

theorem State.mode_eq_resync_iff : s.mode = .resync ↔ s.cur.typeTag = 0 ∧ s.resync = true := by
  unfold State.mode
  by_cases h : s.cur.typeTag = 0 <;> cases hr : s.resync <;> simp [h]

theorem State.mode_eq_awaitHeader_iff : s.mode = .awaitHeader ↔ s.cur.typeTag = 0 ∧ s.resync = false := by
  unfold State.mode
  by_cases h : s.cur.typeTag = 0 <;> cases hr : s.resync <;> simp [h]

/-- A call from the outside taken off where there is none changes nothing. -/
theorem State.call_none_eq (h : s.call = none) : { s with call := none } = s := by
  cases s
  simp_all

end Sys2Proof.Machine
end

