-- ==== Sys2Proof/Laws/Ops.lean ====
section
/-! SUPPORT. What the shared operations can answer, said once: proofs cite these instead of unfolding a meaning. -/

namespace Sys2Proof.Machine

/-- A guarded operation answers a next state exactly where its guard holds, and which one. -/
theorem State.guarded_eq_next_iff (s : State) (m : String) (g : Prop) [Decidable g] (t u : State) :
    s.guarded m g t = .next u ↔ s.cfg.wf = true ∧ g ∧ t = u := by
  unfold State.guarded
  by_cases hw : s.cfg.wf = true <;> by_cases hg : g <;> simp [hw, hg]

theorem State.guarded_of (s : State) (m : String) (g : Prop) [Decidable g] (t : State) (hw : s.cfg.wf = true)
    (hg : g) : s.guarded m g t = .next t :=
  (s.guarded_eq_next_iff m g t t).2 ⟨hw, hg, rfl⟩

/-- Outside its guard an operation is refused by its own name. -/
theorem State.guarded_of_not (s : State) (m : String) (g : Prop) [Decidable g] (t : State) (hw : s.cfg.wf = true)
    (hg : ¬ g) : s.guarded m g t = .refused (.notEnabled m) := by
  simp [State.guarded, hw, hg]

/-- A codec function answers a next state exactly on a well-typed operand, and which one. -/
theorem State.typed_eq_next_iff (s : State) (m : String) (ok : Bool) (t u : State) :
    s.typed m ok t = .next u ↔ s.cfg.wf = true ∧ ok = true ∧ t = u := by
  unfold State.typed
  cases hw : s.cfg.wf <;> cases ok <;> simp

theorem State.typed_of (s : State) (m : String) (ok : Bool) (t : State) (hw : s.cfg.wf = true) (hok : ok = true) :
    s.typed m ok t = .next t :=
  (s.typed_eq_next_iff m ok t t).2 ⟨hw, hok, rfl⟩

/-- ENC_REQ_TEXT over an encoded payload: where it completes and what it gives. -/
theorem encReqPayload_eq_next_iff (t st : Nat) (p : List Byte) (s u : State) :
    encReqPayload t st p s = .next u ↔
      lengthFits s.cfg p.length = true ∧ s.cfg.wf = true ∧ (tagFits s.cfg t && statusFits s.cfg st) = true ∧
      s.giveBack (.bytes (requestWithPayload s.cfg t st p)) = u := by
  unfold encReqPayload
  by_cases h : lengthFits s.cfg p.length = true <;> simp [h, State.typed_eq_next_iff]

/-- Capacity is monotone: fewer bytes fit where more do. -/
theorem withinCapacity_mono (c : Config) {m n : Nat} (h : m ≤ n) (hn : withinCapacity c n = true) :
    withinCapacity c m = true := by
  unfold withinCapacity at *
  cases hc : c.bufCap <;> simp_all
  omega

/-- Consuming keeps the buffer within its capacity. -/
theorem Memory.consume_wf (c : Config) (m : Memory) (n : Nat) (h : m.wf c = true) : (m.consume n).wf c = true :=
  withinCapacity_mono c (by simp [Memory.consume]) h

/-- Appending a chunk that fits keeps the buffer within its capacity. -/
theorem Memory.append_wf (c : Config) (m : Memory) (x : List Byte)
    (h : withinCapacity c (m.length + x.length) = true) : (m.append x).wf c = true := by
  simpa [Memory.wf, Memory.append] using h

/-- The empty buffer is within any capacity. -/
theorem Memory.nil_wf (c : Config) : Memory.wf c [] = true := by
  unfold Memory.wf withinCapacity
  cases c.bufCap <;> simp

/-- The slot and the flag alone decide the mode. -/
theorem State.mode_congr {s t : State} (hc : t.cur.typeTag = s.cur.typeTag) (hr : t.resync = s.resync) :
    t.mode = s.mode := by
  simp [State.mode, hc, hr]

/-- A quiescent state is never in RESYNC (41_reassembler.md R89). -/
theorem State.mode_ne_resync_of_quiescent {s : State} (h : s.quiescent) : s.mode ≠ .resync := by
  rcases h with h | h <;> simp [h.1]

end Sys2Proof.Machine
end

