-- ==== Sys2Proof/Laws/Exec.lean ====
section
/-! SUPPORT. The inversion of exec, said once: an operation answers a next state exactly where its parameters are
well-formed and its guard holds, and that state is its effect. What a step can do follows by cases on the operation. -/

namespace Sys2Proof.Machine

/-- The effect of an operation where it is enabled. -/
def State.effect (s : State) : Instr → State
  | .getTime _ _ => s.handOver (dspGetTime s.pendingHeader s.pendingPayload)
  | .getSize _ _ => s.handOver (dspGetSize s.cfg s.pendingHeader s.pendingPayload)
  | .getStat _ _ => s.handOver (dspGetStat s.pendingHeader s.pendingPayload)
  | .setData _ _ => s.handOver (dspSetData s.pendingHeader s.pendingPayload)
  | .clearData _ _ => s.handOver (dspClearData s.pendingHeader s.pendingPayload)
  | .unknownKind _ _ _ => s.handOver dspUnknown
  | .lenMismatch _ _ _ => s.handOver (dspLenMismatch s.pendingHeader)
  | .nullHeader _ _ => s.consume s.headerSize
  | .hdrAccept t st n => (s.consume s.headerSize).setSlot t st n
  | .hdrNull _ _ => s.consume s.headerSize
  | .hdrMismatch _ _ => s.enterResync
  | .resyncSkip _ _ => s.consume 1
  | .resyncFound => s.leaveResync
  | .resyncEnd => s.leaveResync
  | .dispatch => s.handOver (dsp s.cfg s.pendingHeader s.pendingPayload)
  | .hdrWait => s
  | .payloadWait => s
  | .deliver chunk => s.dequeue.append chunk
  | .connected => s.dequeue.clearConnection.emit [.evConnected]
  | .connError => s.dequeue.emit [.evConnError]
  | .disconnected => s.dequeue.clearConnection.emit [.evDisconnected]
  | .srcError => s.dequeue.emit [.report .srcError]
  | .reset => { s.clearConnection with inq := [] }
  | .encHdr h => s.giveBack (.bytes (encodeHeader s.cfg h))
  | .decHdr bytes => s.giveBack (decHdrResult s.cfg bytes)
  | .encReq t st n => s.giveBack (.bytes (encodeHeader s.cfg (markedHeader s.cfg t st n)))
  | .encReqText t st x => s.giveBack (.bytes (requestWithPayload s.cfg t st (Config.encText x)))

/-- The inversion of exec. -/
theorem exec_eq_next_iff (i : Instr) (s t : State) :
    exec i s = .next t ↔ s.cfg.wf = true ∧ s.enabled i ∧ s.effect i = t := by
  cases i
  case encHdr h => exact s.typed_eq_next_iff _ _ _ t
  case decHdr b =>
    simp only [exec, execDecHdr, State.typed_eq_next_iff, State.enabled, State.effect, true_and]
  case encReq a b n => exact s.typed_eq_next_iff _ _ _ t
  case encReqText a b x =>
    simp only [exec, execEncReqText, encReqPayload_eq_next_iff, State.enabled, State.effect, fieldsFit,
      Bool.and_eq_true]
    tauto
  all_goals exact s.guarded_eq_next_iff _ _ _ t

/-- An enabled operation completes. -/
theorem exec_of_enabled (i : Instr) (s : State) (hw : s.cfg.wf = true) (h : s.enabled i) :
    exec i s = .next (s.effect i) :=
  (exec_eq_next_iff i s _).2 ⟨hw, h, rfl⟩

/-- A step without a call from outside is the exec of the selected row. -/
theorem step_of_no_call (s : State) (h : s.call = none) : step s = exec s.nextRow s := by
  rw [step, s.call_none_eq h]

/-- With something to do and no call, the selected row is the reassembler's. -/
theorem State.nextRow_of_not_quiescent (s : State) (hc : s.call = none) (hq : ¬ s.quiescent) :
    s.nextRow = s.rsmRow := by
  simp only [State.nextRow, hc, if_neg hq]

/-- In the capacity deadlock RSM waits for payload, whatever is buffered (70_reset_and_hazards.md R149). -/
theorem State.payloadWait_of_deadlocked {s : State} (h3 : s.Inv3) (hd : s.deadlocked) : s.payloadWaitGuard := by
  refine ⟨hd.1, Nat.lt_of_not_le fun hle => ?_⟩
  have := withinCapacity_mono s.cfg hle h3
  rw [hd.2] at this
  exact Bool.noConfusion this

/-- At quiescence without a call, the selected row is the event's or the wait's. -/
theorem State.nextRow_of_quiescent (s : State) (hc : s.call = none) (hq : s.quiescent) :
    s.nextRow = s.quietRow := by
  simp only [State.nextRow, hc, if_pos hq]

end Sys2Proof.Machine
end

