-- ==== Sys2Proof/Laws/PerInstr.lean ====
section
/-! SUPPORT. The family EncodedLength: how many bytes an operation's encoding has, per constructor, as the width of its
row's pattern in spec/opcode_table.json says. -/

namespace Sys2Proof.Laws.EncodedLength

open Sys2Proof.Machine

/-- The byte count of a row's pattern, at any parameters (30_encoding.md R65). -/
def width (c : Config) : Instr → Nat
  | .getTime _ _ => headerSize c
  | .getSize _ _ => headerSize c
  | .getStat _ _ => headerSize c
  | .setData _ _ => headerSize c
  | .clearData _ _ => headerSize c
  | .unknownKind _ _ _ => headerSize c
  | .lenMismatch _ _ _ => headerSize c
  | .nullHeader _ _ => headerSize c
  | .hdrAccept _ _ _ => headerSize c
  | .hdrNull _ _ => headerSize c
  | .hdrMismatch _ _ => headerSize c
  | .resyncSkip _ _ => 2
  | .resyncFound => 2
  | .resyncEnd => 1
  | .dispatch => 1
  | .hdrWait => headerSize c - 1
  | .payloadWait => 1
  | .deliver chunk => chunk.length
  | .connected => 1
  | .connError => 1
  | .disconnected => 1
  | .srcError => 1
  | .reset => 1
  | .encHdr _ => headerSize c
  | .decHdr bytes => bytes.length
  | .encReq _ _ _ => headerSize c
  | .encReqText _ _ x => headerSize c + (Config.encText x).length

/-- The encoding has the row's width, at every configuration. -/
def Statement (i : Instr) : Prop := ∀ c : Config, (encode c i).length = width c i

theorem markedBytes_length (c : Config) (t st n : Nat) : (markedBytes c t st n).length = headerSize c :=
  encodeHeader_length c _

theorem getTime (st n : Nat) : Statement (.getTime st n) := fun c => markedBytes_length c _ _ _
theorem getSize (st n : Nat) : Statement (.getSize st n) := fun c => markedBytes_length c _ _ _
theorem getStat (st n : Nat) : Statement (.getStat st n) := fun c => markedBytes_length c _ _ _
theorem setData (st n : Nat) : Statement (.setData st n) := fun c => markedBytes_length c _ _ _
theorem clearData (st n : Nat) : Statement (.clearData st n) := fun c => markedBytes_length c _ _ _
theorem unknownKind (t st n : Nat) : Statement (.unknownKind t st n) := fun c => markedBytes_length c _ _ _
theorem lenMismatch (t st n : Nat) : Statement (.lenMismatch t st n) := fun c => markedBytes_length c _ _ _
theorem nullHeader (st n : Nat) : Statement (.nullHeader st n) := fun c => markedBytes_length c _ _ _
theorem hdrAccept (t st n : Nat) : Statement (.hdrAccept t st n) := fun c => markedBytes_length c _ _ _
theorem hdrNull (st n : Nat) : Statement (.hdrNull st n) := fun c => markedBytes_length c _ _ _

theorem hdrMismatch (b0 b1 : Byte) : Statement (.hdrMismatch b0 b1) := fun c => by
  have := two_le_headerSize c
  simp only [encode, width, List.length_cons, List.length_replicate]
  omega

theorem resyncSkip (b0 b1 : Byte) : Statement (.resyncSkip b0 b1) := fun _ => rfl
theorem resyncFound : Statement .resyncFound := fun _ => rfl
theorem resyncEnd : Statement .resyncEnd := fun _ => rfl
theorem dispatch : Statement .dispatch := fun _ => rfl
theorem hdrWait : Statement .hdrWait := fun _ => List.length_replicate
theorem payloadWait : Statement .payloadWait := fun _ => rfl
theorem deliver (chunk : List Byte) : Statement (.deliver chunk) := fun _ => rfl
theorem connected : Statement .connected := fun _ => rfl
theorem connError : Statement .connError := fun _ => rfl
theorem disconnected : Statement .disconnected := fun _ => rfl
theorem srcError : Statement .srcError := fun _ => rfl
theorem reset : Statement .reset := fun _ => rfl
theorem encHdr (h : Header) : Statement (.encHdr h) := fun c => encodeHeader_length c h
theorem decHdr (bytes : List Byte) : Statement (.decHdr bytes) := fun _ => rfl
theorem encReq (t st n : Nat) : Statement (.encReq t st n) := fun c => markedBytes_length c _ _ _

theorem encReqText (t st : Nat) (text : List Byte) : Statement (.encReqText t st text) := fun c => by
  simp only [encode, width, List.length_append, markedBytes_length]

end Sys2Proof.Laws.EncodedLength
end

