-- ==== Sys2Proof/Laws/System.lean ====
section
/-! SUPPORT. A system of several connections: what replacing an instance and stepping one can do. -/

namespace Sys2Proof.Machine

variable (sys sys' : System) (k : Nat) (t : State)

@[simp] theorem System.setInstance_cfg : (sys.setInstance k t).cfg = sys.cfg := rfl
@[simp] theorem System.setInstance_instances :
    (sys.setInstance k t).instances = sys.instances.set k t := rfl
@[simp] theorem System.resetWith_cfg (c : Config) (n : Nat) : (System.resetWith c n).cfg = c := rfl
@[simp] theorem System.resetWith_instances (c : Config) (n : Nat) :
    (System.resetWith c n).instances = List.replicate n (State.resetWith c) := rfl

/-- The inversion of stepAt: an instance of a system with shared parameters steps, and only it is replaced. -/
theorem System.stepAt_eq_some_iff : sys.stepAt k = some sys' ↔
    sys.shared ∧ ∃ s t, sys.instances[k]? = some s ∧ step s = .next t ∧ sys' = sys.setInstance k t := by
  unfold System.stepAt
  by_cases hs : sys.shared
  · rw [if_pos hs, and_iff_right hs]
    cases hk : sys.instances[k]? with
    | none => simp
    | some s => cases ho : step s <;> simp [ho, eq_comm]
  · simp [hs]

end Sys2Proof.Machine
end

