-- ==== Sys2Proof/Tests/Slice0.lean ====
section
/-! SUPPORT. The model's own tests. Expected values are the spec's vectors (95_test_vectors.md, V and P numbers) or
words written out from 30_encoding.md R50; the witnesses show concrete states and operands that meet the hypotheses of
each obligation. -/

namespace Sys2Proof.Tests

open Sys2Proof Sys2Proof.Machine

/-- The next state, if there is one. -/
def nextOf : Host.Outcome State Fault Refusal → Option State
  | .next t => some t
  | .fault _ => none
  | .refused _ => none

/-- A small state: the slot's three values, the flag and the buffer, the rest as after reset. -/
def st (t s n : Nat) (r : Bool) (b : List Byte) : State :=
  { State.reset with cur := { typeTag := t, status := s, length := n }, resync := r, buf := b }

/-- A small state with one event queued. -/
def ev (s : State) (e : Event) : State := { s with inq := [e] }

/-- The default parameters in the other byte order. -/
def little : Config := { Config.default with order := .little }

/-- A finite buffer. -/
def capped : Config := { Config.default with bufCap := some 16 }

/-- Small parameters with a one-byte length (40_header_codec.md V20). -/
def small : Config := { Config.default with tb := 1, lb := 1, tagGetTime := 1, tagGetSize := 2, tagGetStat := 3,
                                            tagSetData := 4, tagClearData := 5 }

/-- The frame f1 of 95_test_vectors.md section 3. -/
def f1 : List Byte := [0xAB, 0x12, 0x00, 0x65, 0x00, 0x00, 0x00, 0x00, 0x04, 0x00, 0x10, 0x00, 0x00]

/-- The frame f2 of 95_test_vectors.md section 3. -/
def f2 : List Byte := [0xAB, 0x12, 0x77, 0x77, 0x03, 0x00, 0x00, 0x00, 0x02, 0xDE, 0xAD]

/-- The frame f3 of 95_test_vectors.md section 3. -/
def f3 : List Byte := [0xAB, 0x12, 0x00, 0xC9, 0x00, 0x00, 0x00, 0x00, 0x00]

/-- The header of f1. -/
def h1 : Header := { marker := 0xAB12, typeTag := 101, status := 0, length := 4 }

/-! ### Well-formedness: an ill-formed term for each check -/

theorem test_default_config_wf : Config.default.wf = true := by decide
theorem test_config_needs_tb : ({ Config.default with tb := 0 } : Config).wf = false := by decide
theorem test_config_needs_sb : ({ Config.default with sb := 0 } : Config).wf = false := by decide
theorem test_config_needs_lb : ({ Config.default with lb := 0 } : Config).wf = false := by decide
theorem test_config_tag_zero : ({ Config.default with tagGetTime := 0 } : Config).wf = false := by decide
theorem test_config_tag_wide : ({ Config.default with tagSetData := 65536 } : Config).wf = false := by decide
theorem test_config_tags_equal : ({ Config.default with tagGetStat := 100 } : Config).wf = false := by decide
theorem test_config_capacity_below_header : ({ Config.default with bufCap := some 8 } : Config).wf = false := by decide
theorem test_wf_getTime_status : (Instr.getTime 256 0).wf Config.default = false := by decide
theorem test_wf_getTime_length : (Instr.getTime 0 4294967296).wf Config.default = false := by decide
theorem test_wf_getSize_length : (Instr.getSize 0 5).wf Config.default = false := by decide
theorem test_wf_getStat_status : (Instr.getStat 256 0).wf Config.default = false := by decide
theorem test_wf_setData_length : (Instr.setData 0 4294967296).wf Config.default = false := by decide
theorem test_wf_clearData_length : (Instr.clearData 0 1).wf Config.default = false := by decide
theorem test_wf_unknownKind_known : (Instr.unknownKind 101 0 4).wf Config.default = false := by decide
theorem test_wf_unknownKind_zero : (Instr.unknownKind 0 0 4).wf Config.default = false := by decide
theorem test_wf_lenMismatch_fits : (Instr.lenMismatch 101 0 4).wf Config.default = false := by decide
theorem test_wf_nullHeader_status : (Instr.nullHeader 256 0).wf Config.default = false := by decide
theorem test_wf_hdrAccept_zero : (Instr.hdrAccept 0 0 0).wf Config.default = false := by decide
theorem test_wf_hdrAccept_wide : (Instr.hdrAccept 65536 0 0).wf Config.default = false := by decide
theorem test_wf_hdrNull_length : (Instr.hdrNull 0 4294967296).wf Config.default = false := by decide
theorem test_wf_hdrMismatch_marker : (Instr.hdrMismatch 0xAB 0x12).wf Config.default = false := by decide
theorem test_wf_resyncSkip_marker : (Instr.resyncSkip 0xAB 0x12).wf Config.default = false := by decide
theorem test_wf_encHdr_wide :
    (Instr.encHdr { marker := 0, typeTag := 65536, status := 0, length := 0 }).wf Config.default = false := by decide
theorem test_wf_encReq_status : (Instr.encReq 100 256 0).wf Config.default = false := by decide
theorem test_wf_encReqText_tag : (Instr.encReqText 65536 0 []).wf Config.default = false := by
  simp [Instr.wf, tagFits, fieldRange, Config.default]
/-- V20: with `LB = 1` an encoded text of 256 bytes does not fit. -/
theorem test_wf_long_text_V20 : small.wf = true ∧ lengthFits small 256 = false ∧ lengthFits small 255 = true := by
  decide

/-! ### Decoding: for every constructor a word written out from its row -/

theorem test_decode_getTime : decodeTableWord 72 0xAB1200640000000008 = some (.getTime 0 8) := by decide
theorem test_decode_getSize : decodeTableWord 72 0xAB1200650500000004 = some (.getSize 5 4) := by decide
theorem test_decode_getStat : decodeTableWord 72 0xAB1200660000000003 = some (.getStat 0 3) := by decide
theorem test_decode_setData : decodeTableWord 72 0xAB1200C80100000102 = some (.setData 1 258) := by decide
theorem test_decode_clearData : decodeTableWord 72 0xAB1200C90000000000 = some (.clearData 0 0) := by decide
theorem test_decode_unknownKind : decodeTableWord 72 0xAB1277770300000002 = some (.unknownKind 30583 3 2) := by decide
theorem test_decode_lenMismatch : decodeTableWord 72 0xAB1200C90000000001 = some (.lenMismatch 201 0 1) := by decide
theorem test_decode_nullHeader : decodeTableWord 72 0xAB1200000900000002 = some (.nullHeader 9 2) := by decide
theorem test_decode_hdrAccept : decode Config.default (.rsm .awaitHeader 0)
    [0xAB, 0x12, 0xFF, 0xFF, 0xFF, 0xFF, 0xFF, 0xFF, 0xFE] = .ok (.hdrAccept 65535 255 4294967294) := by decide
theorem test_decode_hdrNull : decode Config.default (.rsm .awaitHeader 0)
    [0xAB, 0x12, 0x00, 0x00, 0x09, 0x00, 0x00, 0x00, 0x02] = .ok (.hdrNull 9 2) := by decide
theorem test_decode_hdrMismatch : decodeTableWord 72 0xAB1300C90000000000 = some (.hdrMismatch 0xAB 0x13) := by decide
theorem test_decode_resyncSkip : decodeTableWord 16 0xAB13 = some (.resyncSkip 0xAB 0x13) := by decide
theorem test_decode_resyncFound : decodeTableWord 16 0xAB12 = some .resyncFound := by decide
theorem test_decode_resyncEnd : decode Config.default (.rsm .resync 0) [0xAB] = .ok .resyncEnd := by decide
theorem test_decode_dispatch : decode Config.default (.rsm .awaitPayload 1) [0xAB] = .ok .dispatch := by decide
theorem test_decode_hdrWait : decodeTableWord 64 0xAB12006500000000 = some .hdrWait := by decide
theorem test_decode_payloadWait : decode Config.default (.rsm .awaitPayload 2) [0xAB] = .ok .payloadWait := by decide
theorem test_decode_deliver : decodeTableWord 8 0xAB = some (.deliver [0xAB]) := by decide
theorem test_decode_connected : decodeTableWord 2 0 = some .connected := by decide
theorem test_decode_connError : decodeTableWord 2 1 = some .connError := by decide
theorem test_decode_disconnected : decodeTableWord 2 2 = some .disconnected := by decide
theorem test_decode_srcError : decodeTableWord 2 3 = some .srcError := by decide
theorem test_decode_reset : decodeTableWord 1 1 = some .reset := by decide
theorem test_decode_encHdr : decode Config.default (.codec .encHdr)
    [0x12, 0x34, 0x56, 0x78, 0x9A, 0xBC, 0xDE, 0xF0, 0x12]
    = .ok (.encHdr { marker := 0x1234, typeTag := 0x5678, status := 0x9A, length := 0xBCDEF012 }) := by decide
theorem test_decode_decHdr : decode Config.default (.codec .decHdr) [0xAB, 0x12] = .ok (.decHdr [0xAB, 0x12]) := by
  decide
theorem test_decode_encReq : decode Config.default (.codec .encReq)
    [0xAB, 0x12, 0x00, 0x65, 0xFF, 0x00, 0x00, 0x00, 0x00] = .ok (.encReq 101 255 0) := by decide
theorem test_decode_encReqText : decode Config.default (.codec .encReqText)
    [0xAB, 0x12, 0x00, 0xC8, 0x00, 0x00, 0x00, 0x00, 0x03, 0x68, 0x69, 0x6A]
    = .ok (.encReqText 200 0 (Config.decText [0x68, 0x69, 0x6A])) := rfl
theorem test_decode_rejects_short : decode Config.default .frame [0xAB, 0x12, 0x00] = .error .shortHeader := by decide
theorem test_decode_rejects_marker : decode little .frame f3 = .error .badMarker := by decide
/-- V8: the same bytes read in the other byte order are another header. -/
theorem test_decode_little_V8 : decodeHeader little [0xAB, 0x12, 0x00, 0x65, 0x00, 0x00, 0x00, 0x00, 0x04]
    = some ({ marker := 0x12AB, typeTag := 25856, status := 0, length := 67108864 }, 9) := by decide

/-! ### One step each: the vectors of 95_test_vectors.md -/

theorem test_hdrAccept_V23 : nextOf (step (st 0 0 0 false f1)) = some (st 101 0 4 false [0x00, 0x10, 0x00, 0x00]) := by
  decide
theorem test_hdrNull_V26 :
    nextOf (step (st 0 0 0 false [0xAB, 0x12, 0x00, 0x00, 0x09, 0x00, 0x00, 0x00, 0x02, 0xAB, 0x12]))
      = some (st 0 0 0 false [0xAB, 0x12]) := by decide
theorem test_nullHeader_V26 :
    nextOf (exec (.nullHeader 9 2) (st 0 0 0 false [0xAB, 0x12, 0x00, 0x00, 0x09, 0x00, 0x00, 0x00, 0x02, 0xAB, 0x12]))
      = some (st 0 0 0 false [0xAB, 0x12]) := by decide
theorem test_hdrMismatch_V27 : nextOf (step (st 0 0 0 false (0x01 :: f3))) = some (st 0 0 0 true f3) := by decide
theorem test_hdrMismatch_V29 :
    nextOf (step (st 0 0 0 false [0x12, 0xAB, 0x00, 0xC9, 0x00, 0x00, 0x00, 0x00, 0x00]))
      = some (st 0 0 0 true [0xAB, 0x00, 0xC9, 0x00, 0x00, 0x00, 0x00, 0x00]) := by decide
theorem test_resyncSkip_V33 :
    nextOf (step (st 0 0 0 true [0x55, 0xAB, 0x12, 0x00])) = some (st 0 0 0 true [0xAB, 0x12, 0x00]) := by decide
theorem test_resyncSkip_V34 :
    nextOf (step (st 0 0 0 true [0xAB, 0xAB, 0x12])) = some (st 0 0 0 true [0xAB, 0x12]) := by decide
theorem test_resyncFound_V35 :
    nextOf (step (st 0 0 0 true [0xAB, 0x12, 0x00])) = some (st 0 0 0 false [0xAB, 0x12, 0x00]) := by decide
theorem test_resyncEnd_V37 : nextOf (step (st 0 0 0 true [0xAB])) = some (st 0 0 0 false [0xAB]) := by decide
theorem test_resyncEnd_V39 : nextOf (step (st 0 0 0 true [])) = some (st 0 0 0 false []) := by decide
theorem test_dispatch_V30 :
    nextOf (step (st 101 0 4 false [0x00, 0x10, 0x00, 0x00, 0xAB]))
      = some { st 0 0 0 false [0xAB] with
          out := [.frame h1 [0x00, 0x10, 0x00, 0x00], .evFreeSize 0 1048576] } := by decide
theorem test_dispatch_V32 :
    nextOf (step (st 7 9 2 false [0xAB, 0x12]))
      = some { st 0 0 0 false [] with
          out := [.frame { marker := 0xAB12, typeTag := 7, status := 9, length := 2 } [0xAB, 0x12]] } := by decide
theorem test_hdrWait_V41 :
    nextOf (step (st 0 0 0 false [1, 2, 3, 4, 5, 6, 7, 8])) = some (st 0 0 0 false [1, 2, 3, 4, 5, 6, 7, 8]) := by decide
theorem test_payloadWait_V43 :
    nextOf (step (st 101 0 4 false [0x00, 0x10, 0x00])) = some (st 101 0 4 false [0x00, 0x10, 0x00]) := by decide
theorem test_getTime_V53 :
    nextOf (exec (.getTime 0 0) (st 100 0 0 false []))
      = some { st 0 0 0 false [] with
          out := [.frame { marker := 0xAB12, typeTag := 100, status := 0, length := 0 } [], .evTime 0 []] } := by decide
theorem test_getSize_V55 :
    nextOf (exec (.getSize 5 4) (st 101 5 4 false [0xFF, 0xFF, 0xFF, 0xFF]))
      = some { st 0 0 0 false [] with
          out := [.frame { marker := 0xAB12, typeTag := 101, status := 5, length := 4 } [0xFF, 0xFF, 0xFF, 0xFF],
            .evFreeSize 5 4294967295] } := by decide
/-- V65: the same value in the other byte order. -/
theorem test_getSize_V65 :
    (nextOf (exec (.getSize 0 4) { st 101 0 4 false [0x00, 0x00, 0x10, 0x00] with cfg := little })).map State.out
      = some [.frame h1 [0x00, 0x00, 0x10, 0x00], .evFreeSize 0 1048576] := by decide
theorem test_getStat_V59 :
    (nextOf (exec (.getStat 0 3) (st 102 0 3 false [1, 2, 3]))).map State.out
      = some [.frame { marker := 0xAB12, typeTag := 102, status := 0, length := 3 } [1, 2, 3],
          .evStats 0 [1, 2, 3]] := by decide
theorem test_setData_V60 :
    (nextOf (exec (.setData 0 2) (st 200 0 2 false [0x68, 0x69]))).map State.out
      = some [.frame { marker := 0xAB12, typeTag := 200, status := 0, length := 2 } [0x68, 0x69],
          .evSetDataReply 0 [0x68, 0x69]] := by decide
theorem test_clearData_V61 :
    (nextOf (exec (.clearData 0 0) (st 201 0 0 false []))).map State.out
      = some [.frame { marker := 0xAB12, typeTag := 201, status := 0, length := 0 } [], .evClearAck 0] := by decide
theorem test_lenMismatch_V57 :
    (nextOf (exec (.lenMismatch 101 0 2) (st 101 0 2 false [0x00, 0x10]))).map State.out
      = some [.frame { marker := 0xAB12, typeTag := 101, status := 0, length := 2 } [0x00, 0x10],
          .report (.lenMismatch 101 2)] := by decide
theorem test_lenMismatch_V62 :
    (nextOf (step (st 201 0 1 false [0x00]))).map State.out
      = some [.frame { marker := 0xAB12, typeTag := 201, status := 0, length := 1 } [0x00],
          .report (.lenMismatch 201 1)] := by decide
theorem test_unknownKind_V63 :
    (nextOf (exec (.unknownKind 30583 3 2) (st 30583 3 2 false [0xDE, 0xAD]))).map State.out
      = some [.frame { marker := 0xAB12, typeTag := 30583, status := 3, length := 2 } [0xDE, 0xAD]] := by decide
theorem test_connected_V66 :
    nextOf (step (ev (st 101 0 4 false [0x00, 0x10]) .connected))
      = some { st 0 0 0 false [] with out := [.evConnected] } := by decide
theorem test_disconnected_V68 :
    nextOf (step (ev (st 101 0 4 false [0x00, 0x10]) .disconnected))
      = some { st 0 0 0 false [] with out := [.evDisconnected] } := by decide
theorem test_connError_V69 :
    nextOf (step (ev (st 101 0 4 false [0x00, 0x10]) .connError))
      = some { st 101 0 4 false [0x00, 0x10] with out := [.evConnError] } := by decide
theorem test_srcError_V70 :
    nextOf (step (ev (st 0 0 0 false [0xAB]) .srcError))
      = some { st 0 0 0 false [0xAB] with out := [.report .srcError] } := by decide
theorem test_reset_V71 : nextOf (step ((st 0 0 0 true [0x55, 0x66, 0x77]).request .reset)) = some State.reset := by
  decide
theorem test_reset_V72 :
    nextOf (step ({ st 101 0 4 false [0x00] with
        inq := [.deliver [0x10, 0x00, 0x00], .disconnected] }.request .reset)) = some State.reset := by decide
theorem test_deliver_P1 :
    nextOf (step (ev (st 101 0 4 false [0x00, 0x10]) (.deliver [0x00, 0x00])))
      = some { st 101 0 4 false [0x00, 0x10, 0x00, 0x00] with arrived := [0x00, 0x00] } := by decide
/-- V73: an empty delivery is a no-op. -/
theorem test_deliver_empty_V73 :
    nextOf (step (ev (st 0 0 0 false [0xAB, 0x12]) (.deliver []))) = some (st 0 0 0 false [0xAB, 0x12]) := by decide
/-- V75: a delivery that does not fit stays queued and nothing changes. -/
theorem test_stuck_V75 :
    nextOf (step (ev { st 101 0 100 false (List.replicate 16 0) with cfg := capped } (.deliver [0x00])))
      = some (ev { st 101 0 100 false (List.replicate 16 0) with cfg := capped } (.deliver [0x00])) := by decide
theorem test_encHdr_V4 :
    (nextOf (exec (.encHdr { marker := 0x1234, typeTag := 0x5678, status := 0x9A, length := 0xBCDEF012 })
        State.reset)).map State.ret
      = some (some (.bytes [0x12, 0x34, 0x56, 0x78, 0x9A, 0xBC, 0xDE, 0xF0, 0x12])) := by decide
/-- V5 in LITTLE order. -/
theorem test_encHdr_V5 :
    (nextOf (exec (.encHdr { marker := 0xAB12, typeTag := 200, status := 1, length := 258 })
        (State.resetWith little))).map State.ret
      = some (some (.bytes [0x12, 0xAB, 0xC8, 0x00, 0x01, 0x02, 0x01, 0x00, 0x00])) := by decide
theorem test_decHdr_V9 :
    (nextOf (exec (.decHdr [0xAB, 0x12, 0x00, 0x65, 0x00, 0x00, 0x00, 0x00]) State.reset)).map State.ret
      = some (some .insufficientData) := by decide
theorem test_decHdr_V11 :
    (nextOf (exec (.decHdr [0xAB, 0x12, 0x00, 0x65, 0x00, 0x00, 0x00, 0x00, 0x04, 0x00, 0x10]) State.reset)).map State.ret
      = some (some (.header h1 9)) := by decide
theorem test_encReq_V16 :
    (nextOf (exec (.encReq 101 255 0) State.reset)).map State.ret
      = some (some (.bytes [0xAB, 0x12, 0x00, 0x65, 0xFF, 0x00, 0x00, 0x00, 0x00])) := by decide
/-- V22: another marker. -/
theorem test_encReq_V22 :
    (nextOf (exec (.encReq 201 0 0) (State.resetWith { Config.default with marker := 0x7E7E }))).map State.ret
      = some (some (.bytes [0x7E, 0x7E, 0x00, 0xC9, 0x00, 0x00, 0x00, 0x00, 0x00])) := by decide
/-- V18: ENC_REQ_TEXT over an encoded text of three bytes. -/
theorem test_encReqText_V18 :
    (nextOf (encReqPayload 200 0 [1, 2, 3] State.reset)).map State.ret
      = some (some (.bytes [0xAB, 0x12, 0x00, 0xC8, 0x00, 0x00, 0x00, 0x00, 0x03, 1, 2, 3])) := by decide
/-- V46: a marker of two equal bytes matches one byte early. -/
theorem test_equal_marker_bytes_V46 :
    nextOf (step { st 0 0 0 true [0x7E, 0x7E, 0x7E, 0x00] with cfg := { Config.default with marker := 0x7E7E } })
      = some { st 0 0 0 false [0x7E, 0x7E, 0x7E, 0x00] with cfg := { Config.default with marker := 0x7E7E } } := by
  decide

/-- P5: the frames in a stream whose first header has the reserved tag, by 41_reassembler.md R94. -/
theorem test_frames_P5 :
    frames Config.default ([0xAB, 0x12, 0x00, 0x00, 0x09, 0x00, 0x00, 0x00, 0x02, 0xAB, 0x12] ++ f3) = [] := by decide
/-- P4: three frames in one stream. -/
theorem test_frames_P4 : (frames Config.default (f1 ++ f2 ++ f3)).map (fun f => f.2)
    = [[0x00, 0x10, 0x00, 0x00], [0xDE, 0xAD], []] := by decide

/-! ### The host's questions: the table's words run as the first operation after reset -/

theorem test_fetch_resyncFound :
    nextOf (step (State.reset.withFetchWord 16 0xAB12)) = some { State.reset with buf := [0xAB, 0x12] } := by decide
theorem test_fetch_getTime :
    nextOf (step (State.reset.withFetchWord 72 0xAB1200640000000000))
      = nextOf (exec (.getTime 0 0) (State.reset.withFetchWord 72 0xAB1200640000000000)) := by decide
theorem test_fetch_encReq_width : (tableInstr Config.default 80 0xAB1200C8000000000168).isSome = true := rfl

/-! ### Witnesses: concrete states and operands that meet the hypotheses of each obligation, clause by clause -/

/-- From the next state computed to the answer it is of. -/
theorem next_of {o : Host.Outcome State Fault Refusal} {t : State} (h : nextOf o = some t) : o = .next t := by
  cases o <;> simp_all [nextOf]

/-- All four fields at their greatest values. -/
def hMax : Header := { marker := 0xFFFF, typeTag := 65535, status := 255, length := 4294967295 }

/-- A header of zeros. -/
def hZero : Header := { marker := 0, typeTag := 0, status := 0, length := 0 }

/-- A state in AWAIT_PAYLOAD whose ghost agrees with its buffer. -/
def sPay : State := { st 101 0 4 false [0x00, 0x10, 0x00, 0x00, 0xAB] with arrived := [0x00, 0x10, 0x00, 0x00, 0xAB] }

/-- A state in RESYNC. -/
def sScan : State := st 0 0 0 true [0x55, 0xAB, 0x12]

/-- Parameters whose `length` field is wide enough for one encoded text. -/
def wide (x : List Byte) : Config := { Config.default with lb := (Config.encText x).length + 1 }

theorem wide_fits (x : List Byte) (t s : Nat) (ht : t < 256 ^ 2) (hs : s < 256 ^ 1) :
    (wide x).wf = true ∧ fieldsFit (wide x) t s (Config.encText x).length = true := by
  have h (n : Nat) : n < 256 ^ (n + 1) :=
    (Nat.lt_pow_self (by decide)).trans (Nat.pow_lt_pow_right (by decide) (Nat.lt_succ_self n))
  constructor
  · simp [Config.wf, wide, Config.default, Config.tags, withinCapacity, fieldRange]
  · have ht' : tagFits (wide x) t = true := decide_eq_true ht
    have hs' : statusFits (wide x) s = true := decide_eq_true hs
    have hl : lengthFits (wide x) (Config.encText x).length = true := decide_eq_true (h _)
    simp [fieldsFit, ht', hs', hl]

theorem witness_BytesAndValuesAreInverse : 65535 < 256 ^ 2 ∧ 0 < 256 ^ 0 := by decide
theorem witness_HeaderCodecLaws : Config.default.wf = true ∧ little.wf = true ∧ hMax.wellTyped Config.default = true ∧
    hZero.wellTyped Config.default = true ∧ f3.length = headerSize Config.default ∧
    encodeHeader Config.default hMax = encodeHeader Config.default hMax ∧ ByteOrder.little ≠ Config.default.order ∧
    decodeHeader { Config.default with order := .little } (encodeHeader Config.default hMax) = some (hMax, 9) := by
  decide
theorem witness_FlatVectorBitPositions : 0 < f1.length ∧ 12 < f1.length ∧ 65535 < 2 ^ (8 * 2) ∧
    Config.default.order = .big ∧ hMax.wellTyped Config.default = true := by decide
theorem witness_EncHdrGivesFieldBytes : State.reset.cfg.wf = true ∧ hMax.wellTyped State.reset.cfg = true := by decide
theorem witness_DecHdrReadsFirstBytes : State.reset.cfg.wf = true ∧ [1, 2, 3, 4, 5, 6, 7, 8].length < 2 + 2 + 1 + 4 ∧
    2 + 2 + 1 + 4 ≤ f3.length := by decide
theorem witness_EncReqSuppliesMarker : State.reset.cfg.wf = true ∧
    fieldsFit State.reset.cfg 65535 255 4294967295 = true := by decide
theorem witness_EncReqTextCountsPayload : (State.resetWith (wide [])).cfg.wf = true ∧
    fieldsFit (State.resetWith (wide [])).cfg 65535 255 (Config.encText []).length = true :=
  wide_fits [] 65535 255 (by decide) (by decide)
theorem witness_EncReqTextCountsPayload_refusal : (State.resetWith small).cfg.wf = true ∧
    tagFits small 255 = true ∧ statusFits small 255 = true ∧ 256 ^ small.lb ≤ (List.replicate 256 (0 : Byte)).length := by
  refine ⟨by decide, by decide, by decide, ?_⟩
  rw [List.length_replicate]
  decide
theorem witness_CodecLeavesMachineAlone : isCodecRow (.decHdr []) = true ∧
    exec (.decHdr []) sPay = .next { sPay with ret := some .insufficientData } := ⟨rfl, next_of (by decide)⟩
theorem witness_BufferPrimitives : 2 ≤ f1.length ∧ Memory.read f1 11 2 = some [0x00, 0x00] ∧
    Memory.read f1 12 2 = none := by decide

theorem witness_DecodeOfEncodeIsIdentity : Config.default.wf = true ∧ (Instr.getTime 255 4294967295).wf Config.default ∧
    (Instr.getSize 0 4).wf Config.default ∧ (Instr.clearData 0 0).wf Config.default ∧
    (Instr.unknownKind 65535 0 0).wf Config.default ∧ (Instr.lenMismatch 101 0 0).wf Config.default ∧
    (Instr.hdrAccept 1 0 0).wf Config.default ∧ (Instr.hdrMismatch 0xAB 0x13).wf Config.default ∧
    (Instr.encHdr hMax).wf Config.default := by decide
theorem witness_DecodeOfEncodeIsIdentity_text : (wide [7]).wf = true ∧ (Instr.encReqText 200 0 [7]).wf (wide [7]) = true := by
  have h := wide_fits [7] 200 0 (by decide) (by decide)
  exact ⟨h.1, h.2⟩
theorem witness_EncodeOfDecodeIsTheWord : Config.default.wf = true ∧
    decode Config.default .frame f1 = .ok (.getSize 0 4) ∧
    decode Config.default (.codec .encHdr) f1 = .ok (.encHdr h1) ∧
    decode Config.default (.codec .encReq) f1 = .ok (.encReq 101 0 4) ∧
    decode Config.default (.codec .decHdr) [] = .ok (.decHdr []) ∧
    decode Config.default .chunk [] = .ok (.deliver []) ∧
    decode Config.default .port [3] = .ok .srcError ∧
    decode Config.default .resetPin [1] = .ok .reset := by decide
theorem witness_DecodedOperationsAreWellFormed : Config.default.wf = true ∧ View.frame ≠ .codec .encReqText ∧
    decode Config.default .frame f2 = .ok (.unknownKind 30583 3 2) := by decide

theorem witness_HdrAcceptFillsSlot : (st 0 0 0 false f1).cfg.wf = true ∧ (st 0 0 0 false f1).mode = .awaitHeader ∧
    (0xAB : Byte) = markerByte0 Config.default ∧ (0x12 : Byte) = markerByte1 Config.default ∧
    f1 = 0xAB :: 0x12 :: [0x00, 0x65, 0x00, 0x00, 0x00, 0x00, 0x04] ++ [0x00, 0x10, 0x00, 0x00] ∧
    [0x00, 0x65, 0x00, 0x00, 0x00, 0x00, 0x04].length = 2 + 1 + 4 ∧
    101 = valueOf Config.default (([0x00, 0x65, 0x00, 0x00, 0x00, 0x00, 0x04] : List Byte).take 2) ∧
    0 = valueOf Config.default ((([0x00, 0x65, 0x00, 0x00, 0x00, 0x00, 0x04] : List Byte).drop 2).take 1) ∧
    4 = valueOf Config.default (([0x00, 0x65, 0x00, 0x00, 0x00, 0x00, 0x04] : List Byte).drop 3) ∧ 101 ≠ 0 := by decide
theorem witness_NullHeaderIsConsumed :
    f3.length = 9 ∧ (st 0 0 0 false [0xAB, 0x12, 0x00, 0x00, 0x09, 0x00, 0x00, 0x00, 0x02]).mode = .awaitHeader ∧
    valueOf Config.default (([0x00, 0x00, 0x09, 0x00, 0x00, 0x00, 0x02] : List Byte).take 2) = 0 ∧
    9 = valueOf Config.default ((([0x00, 0x00, 0x09, 0x00, 0x00, 0x00, 0x02] : List Byte).drop 2).take 1) ∧
    2 = valueOf Config.default (([0x00, 0x00, 0x09, 0x00, 0x00, 0x00, 0x02] : List Byte).drop 3) := by decide
theorem witness_HdrMismatchDropsOneByte : (st 0 0 0 false (0x01 :: f3.take 8)).mode = .awaitHeader ∧
    2 + 2 + 1 + 4 ≤ (0x01 :: f3.take 8).length ∧
    ¬ ((0x01 : Byte) = markerByte0 Config.default ∧ (0xAB : Byte) = markerByte1 Config.default) := by decide
theorem witness_ResyncSkipDropsOneByte : sScan.cfg.wf = true ∧ sScan.mode = .resync ∧ sScan.buf = 0x55 :: 0xAB :: [0x12] ∧
    ¬ ((0x55 : Byte) = markerByte0 Config.default ∧ (0xAB : Byte) = markerByte1 Config.default) := by decide
theorem witness_ResyncFoundClearsFlag : (st 0 0 0 true [0xAB, 0x12]).mode = .resync ∧
    (st 0 0 0 true [0xAB, 0x12]).buf = markerByte0 Config.default :: markerByte1 Config.default :: [] := by decide
theorem witness_ResyncEndKeepsLastByte : (st 0 0 0 true [0xAB]).mode = .resync ∧ [(0xAB : Byte)].length < 2 ∧
    ([] : List Byte).length < 2 := by decide
theorem witness_DispatchHandsOverFrame : sPay.cfg.wf = true ∧ sPay.mode = .awaitPayload ∧
    sPay.buf = [0x00, 0x10, 0x00, 0x00] ++ [0xAB] ∧ [(0x00 : Byte), 0x10, 0x00, 0x00].length = sPay.cur.length ∧
    (st 7 0 0 false []).mode = .awaitPayload ∧ ([] : List Byte).length = (st 7 0 0 false []).cur.length := by decide
theorem witness_WaitsChangeNothing : (st 0 0 0 false (f3.take 8)).mode = .awaitHeader ∧ (f3.take 8).length < 2 + 2 + 1 + 4 ∧
    (st 101 0 4 false [1, 2, 3]).mode = .awaitPayload ∧ [(1 : Byte), 2, 3].length < 4 := by decide
theorem witness_WaitsChangeNothing_lifted :
    exec (.deliver [4]) (ev (st 101 0 4 false [1, 2, 3]) (.deliver [4]))
      = .next { st 101 0 4 false [1, 2, 3, 4] with arrived := [4] } ∧
    exec (.deliver (f3.drop 8)) (ev (st 0 0 0 false (f3.take 8)) (.deliver (f3.drop 8)))
      = .next { st 0 0 0 false f3 with arrived := [0x00] } ∧
    exec .disconnected (ev (st 101 0 4 false [1, 2, 3]) .disconnected)
      = .next { State.reset with out := [.evDisconnected] } :=
  ⟨next_of (by decide), next_of (by decide), next_of (by decide)⟩

theorem witness_OpenKindsPassRawBytes : (st 100 0 1 false [5, 6]).cfg.wf = true ∧
    (st 100 0 1 false [5, 6]).buf = [5] ++ [6] ∧
    (st 100 0 1 false [5, 6]).cur = { typeTag := Config.default.tagGetTime, status := 0, length := 1 } ∧
    (st 102 0 0 false []).cur = { typeTag := Config.default.tagGetStat, status := 0, length := 0 } ∧
    (st 200 0 0 false []).cur = { typeTag := Config.default.tagSetData, status := 0, length := 0 } := by decide
theorem witness_GetSizeDecodesFourBytes : sPay.buf = [0x00, 0x10, 0x00, 0x00] ++ [0xAB] ∧
    sPay.cur = { typeTag := sPay.cfg.tagGetSize, status := 0, length := 4 } ∧
    (st 101 0 5 false [1, 2, 3, 4, 5]).cur = { typeTag := Config.default.tagGetSize, status := 0, length := 5 } := by
  decide
theorem witness_ClearDataAcknowledgesEmpty :
    (st 201 0 0 false []).cur = { typeTag := Config.default.tagClearData, status := 0, length := 0 } ∧
    (st 201 0 1 false [0]).cur = { typeTag := Config.default.tagClearData, status := 0, length := 1 } ∧
    (st 201 0 1 false [0]).buf = [0] ++ [] := by decide
theorem witness_UnknownKindEmitsNoEvent : 65535 ∉ Config.default.tags ∧ 1 ∉ Config.default.tags ∧
    (st 1 0 0 false []).cur = { typeTag := 1, status := 0, length := 0 } := by decide
theorem witness_LenMismatchReports : (101 = Config.default.tagGetSize ∧ 3 ≠ 4) ∧
    (201 = Config.default.tagClearData ∧ 1 ≠ 0) ∧ (st 101 0 3 false [1, 2, 3]).buf = [1, 2, 3] ++ [] := by decide
theorem witness_DispatchRunsTheFrameRow : sPay.cfg.wf = true ∧ sPay.dispatchGuard := by decide

theorem witness_DeliveryAppendsAndDrains_full :
    (ev { st 0 0 0 false [1, 2, 3] with cfg := capped } (.deliver (List.replicate 13 0))).quiescent ∧
    capped.wf = true ∧ ∀ cap, capped.bufCap = some cap → [1, 2, 3].length + (List.replicate 13 (0 : Byte)).length ≤ cap := by
  refine ⟨by decide, by decide, fun cap h => ?_⟩
  have : 16 = cap := Option.some.inj h
  subst this
  decide
theorem witness_DeliveryAppendsAndDrains : (ev State.reset (.deliver f1)).call = none ∧
    (ev State.reset (.deliver f1)).quiescent ∧ (ev State.reset (.deliver [])).quiescent ∧
    State.reset.cfg.bufCap = none := by decide
theorem witness_ConnectedClearsAndForwards : (ev (st 101 0 4 false [0]) .connected).quiescent ∧
    (ev (st 101 0 4 false [0]) .connected).inq = .connected :: [] := by decide
theorem witness_DisconnectedClearsAndForwards : (ev (st 101 0 4 false [0]) .disconnected).quiescent ∧
    (ev (st 101 0 4 false [0]) .disconnected).inq = .disconnected :: [] := by decide
theorem witness_ConnErrorOnlyForwards : (ev (st 101 0 4 false [0]) .connError).quiescent ∧
    (ev (st 101 0 4 false [0]) .connError).inq = .connError :: [] := by decide
theorem witness_SrcErrorOnlyReports : (ev (st 0 0 0 false [0xAB]) .srcError).quiescent ∧
    (ev (st 0 0 0 false [0xAB]) .srcError).inq = .srcError :: [] := by decide
theorem witness_ResetActsAtAnyTime : sScan.cfg.wf = true ∧ ¬ sScan.quiescent ∧ little.wf = true := by decide
theorem witness_ResetValues : exec .reset sScan = .next State.reset ∧
    exec .connected (ev sScan.clearConnection .connected) = .next { State.reset with out := [.evConnected] } ∧
    exec .disconnected (ev sPay.clearConnection .disconnected) = .next { State.reset with out := [.evDisconnected] } :=
  ⟨next_of (by decide), next_of (by decide), next_of (by decide)⟩
theorem witness_AfterResetAnEventIsTaken : capped.wf = true ∧
    (State.resetWith capped).eventFits (.deliver (List.replicate 16 0)) = true ∧
    (State.resetWith capped).eventFits .connected = true := by decide
theorem witness_StatusReadOut : sPay.RegistersFit ∧ (st 65535 255 4294967295 false []).RegistersFit := by decide
theorem witness_ConditionsRecordedOutside : exec .connError (ev sPay.clearConnection .connError)
    = .next { State.reset with out := [.evConnError] } := next_of (by decide)

theorem witness_StepRunsTheDecodedRow :
    (decode sPay.cfg (.rsm sPay.mode sPay.cur.length) sPay.buf = .ok .dispatch ∧ ¬ sPay.quiescent ∧ sPay.call = none) ∧
    (decode State.reset.cfg (.rsm State.reset.mode 0) [] = .ok .hdrWait ∧ State.reset.quiescent ∧
      State.reset.eventFits .connected = true) ∧
    (ev { st 0 0 0 false [1] with cfg := capped } (.deliver (List.replicate 16 0))).eventFits
      (.deliver (List.replicate 16 0)) = false := by decide
theorem witness_PlacedWordIsRunNext : State.reset.cfg.wf = true ∧
    tableInstr State.reset.cfg 72 0xAB1200650000000004 = some (.getSize 0 4) ∧
    tableInstr State.reset.cfg 8 0 = some (.deliver [0]) ∧ tableInstr State.reset.cfg 1 1 = some .reset := by decide
theorem witness_OperationsRunWhereEnabled : sScan.cfg.wf = true ∧ sScan.resyncSkipGuard 0x55 0xAB ∧
    ¬ sScan.dispatchGuard ∧ ({ Config.default with tb := 0 } : Config).wf = false := by decide
theorem witness_ExactlyOneRowEnabled : sPay.cfg.wf = true ∧ sPay.quiescent = False ∧ sScan.mode = .resync := by
  refine ⟨by decide, eq_false (by decide), by decide⟩
theorem witness_EveryStepCompletes : sPay.cfg.wf = true ∧
    ∀ k, (sPay.request (.encHdr hMax)).call = some k → (sPay.request (.encHdr hMax)).enabled (callRow k) := by
  refine ⟨by decide, fun k h => ?_⟩
  have : Call.encHdr hMax = k := Option.some.inj h
  subst this
  exact (by decide : hMax.wellTyped Config.default = true)
theorem witness_StepKeepsInvariant : sPay.Inv ∧ (nextOf (step sPay)).isSome = true := by decide
theorem witness_InvariantHoldsAtReset : Config.default.wf = true ∧ little.wf = true ∧ capped.wf = true ∧
    small.wf = true := by decide
theorem witness_ParametersNeverChange : exec .resyncFound { sScan with buf := [0xAB, 0x12] }
    = .next { sScan with buf := [0xAB, 0x12], resync := false } := next_of (by decide)
theorem witness_TransitionsConsumeStatedBytes :
    exec (.resyncSkip 0x55 0xAB) sScan = .next { sScan with buf := [0xAB, 0x12] } ∧
    exec (.unknownKind 7 0 0) (st 7 0 0 false [1])
      = .next { st 0 0 0 false [1] with
          out := [.frame { marker := 0xAB12, typeTag := 7, status := 0, length := 0 } []] } ∧
    exec (.nullHeader 9 2) (st 0 0 0 false [0xAB, 0x12, 0x00, 0x00, 0x09, 0x00, 0x00, 0x00, 0x02])
      = .next (st 0 0 0 false []) := ⟨next_of (by decide), next_of (by decide), next_of (by decide)⟩
theorem witness_SlotAndFlagWriters :
    exec (.hdrAccept 201 0 0) (st 0 0 0 false f3) = .next (st 201 0 0 false []) ∧
    exec (.hdrMismatch 0x01 0xAB) (st 0 0 0 false (0x01 :: f3)) = .next (st 0 0 0 true f3) :=
  ⟨next_of (by decide), next_of (by decide)⟩
theorem witness_ItemsComeFromTheirOperations : exec .dispatch (st 201 0 0 false [])
    = .next { st 0 0 0 false [] with
        out := [.frame { marker := 0xAB12, typeTag := 201, status := 0, length := 0 } [], .evClearAck 0] } :=
  next_of (by decide)
theorem witness_ModeChangesOfTheGraph : (st 0 0 0 false f3).Inv1 ∧ sScan.Inv1 ∧ (st 201 0 0 false []).Inv1 ∧
    exec (.hdrAccept 201 0 0) (st 0 0 0 false f3) = .next (st 201 0 0 false []) ∧
    exec (.hdrNull 9 2) (st 0 0 0 false [0xAB, 0x12, 0x00, 0x00, 0x09, 0x00, 0x00, 0x00, 0x02])
      = .next (st 0 0 0 false []) ∧
    exec (.hdrMismatch 0x01 0xAB) (st 0 0 0 false (0x01 :: f3)) = .next (st 0 0 0 true f3) ∧
    exec (.resyncSkip 0x55 0xAB) sScan = .next { sScan with buf := [0xAB, 0x12] } ∧
    exec .resyncFound (st 0 0 0 true [0xAB, 0x12]) = .next (st 0 0 0 false [0xAB, 0x12]) ∧
    exec .resyncEnd (st 0 0 0 true [0xAB]) = .next (st 0 0 0 false [0xAB]) ∧
    exec .dispatch (st 7 0 0 false [])
      = .next { st 0 0 0 false [] with
          out := [.frame { marker := 0xAB12, typeTag := 7, status := 0, length := 0 } []] } ∧
    exec .reset sScan = .next State.reset :=
  ⟨by decide, by decide, by decide, next_of (by decide), next_of (by decide), next_of (by decide),
    next_of (by decide), next_of (by decide), next_of (by decide), next_of (by decide), next_of (by decide)⟩
theorem witness_EventsTakenOnlyAtQuiescence : (ev State.reset .connError).call = none ∧
    step (ev State.reset .connError) = .next { State.reset with out := [.evConnError] } ∧
    ([] : List Event) ≠ (ev State.reset .connError).inq := ⟨by decide, next_of (by decide), by decide⟩
theorem witness_IssuedEventOnlyWaits : sScan.call ≠ some .reset ∧ ¬ sScan.quiescent ∧
    step sScan = .next { sScan with buf := [0xAB, 0x12] } ∧ (ev State.reset .connError).inq ≠ [] ∧
    (State.reset.request (.decHdr [])).call ≠ none ∧ (State.reset.request (.decHdr [])).call ≠ some .reset :=
  ⟨by decide, by decide, next_of (by decide), by decide, by decide, by decide⟩
theorem witness_DrainTerminates : sScan.cfg.wf = true ∧ sScan.call = none ∧ ¬ sScan.quiescent ∧
    step sScan = .next { sScan with buf := [0xAB, 0x12] } := ⟨by decide, by decide, by decide, next_of (by decide)⟩
theorem witness_TransitionKeepsFramesToCome : sPay.cfg.wf = true ∧ sPay.call = none ∧ ¬ sPay.quiescent ∧
    (nextOf (step sPay)).isSome = true := by decide
theorem witness_ChunkingIndependence :
    ({ State.reset with inq := [.deliver (f1.take 3), .deliver (f1.drop 3), .deliver []] } : State).inq
      = [f1.take 3, f1.drop 3, []].map Event.deliver ∧ State.reset.cfg.wf = true ∧ State.reset.cfg.bufCap = none ∧
    State.reset.call = none ∧ State.reset.cur = Slot.empty ∧ State.reset.resync = false ∧ State.reset.buf = [] := by
  decide
theorem witness_ResyncRecoversFrame :
    (st 0 0 0 false ([0x00, 0xAB, 0x55] ++ f1)).buf
      = [0x00, 0xAB, 0x55] ++ (encodeHeader Config.default h1 ++ [0x00, 0x10, 0x00, 0x00]) ∧
    h1.valid Config.default = true ∧ [(0x00 : Byte), 0x10, 0x00, 0x00].length = h1.length ∧
    (∀ j < [(0x00 : Byte), 0xAB, 0x55].length,
      markerMatches Config.default ((st 0 0 0 false ([0x00, 0xAB, 0x55] ++ f1)).buf.drop j) = false) ∧
    (st 0 0 0 false ([0x00, 0xAB, 0x55] ++ f1)).cur = Slot.empty := by decide
/-- A pending length of 100 over a buffer of 16 bytes, the given bytes buffered (R149). -/
def sDead (b : List Byte) : State := { st 101 0 100 false b with cfg := capped }

theorem witness_WaitingStatesRest_blocked :
    (ev (sDead (List.replicate 16 0)) (.deliver [0x00])).blocked ∧ (sDead (List.replicate 16 0)).Inv3 :=
  ⟨⟨rfl, by decide, .deliver [0x00], rfl, by decide⟩, by decide⟩
theorem witness_WaitingStatesRest_deadlocked : capped.wf = true ∧ (sDead []).Inv3 ∧ (sDead []).deadlocked ∧
    ({ st 101 0 17 false [] with cfg := capped } : State).deadlocked ∧
    ¬ ({ st 101 0 16 false [] with cfg := capped } : State).deadlocked ∧
    (sDead []).call = none ∧ (sDead []).inq = [] ∧ ¬ (sDead []).final := by decide
theorem witness_WaitingStatesRest_steps :
    step (ev (sDead []) .connError) = .next { sDead [] with out := [.evConnError] } ∧
    step (ev (sDead []) (.deliver [7])) = .next { sDead [7] with arrived := [7] } ∧
    step ((sDead []).request (.decHdr [])) = .next { sDead [] with ret := some .insufficientData } ∧
    (ev (sDead []) .connected).inq = .connected :: [] :=
  ⟨next_of (by decide), next_of (by decide), next_of (by decide), by decide⟩
theorem witness_WaitingStatesRest_final : State.reset.cfg.wf = true ∧ State.reset.final ∧
    (st 101 0 4 false [0x00, 0x10]).final := by decide
theorem witness_StatusIsOpaque : sPay.call = none ∧ (nextOf (step sPay)).isSome = true ∧
    (nextOf (step { sPay with cur := { sPay.cur with status := 77 } })).isSome = true := by decide
theorem witness_HistoryIsNeverRead : (nextOf (step sPay)).isSome = true := by decide
theorem witness_InstancesAreIndependent :
    System.stepAt { cfg := Config.default, instances := [State.reset, sScan] } 1
      = some { cfg := Config.default, instances := [State.reset, { sScan with buf := [0xAB, 0x12] }] } := by decide
theorem test_unshared_parameters_R27 :
    System.stepAt { cfg := Config.default, instances := [State.reset, sDead []] } 0 = none := by decide

end Sys2Proof.Tests
end

section
/-! The proofs about the state (10_state.md): which fields an operation can change, what it emits, and what it does not
read. Each fact is said once of `State.effect`; the inversion `exec_eq_next_iff` carries it to exec and to the step. -/

namespace Sys2Proof.Machine

/-! ### What an operation emits -/

/-- The items a handed-over frame puts on the trace: its FRAME item, and the dispatcher's behind it (41_reassembler.md
R86). -/
def State.frameItems (s : State) (items : List Item) : List Item :=
  .frame s.pendingHeader s.pendingPayload :: items

/-- The items an operation emits where it is enabled (10_state.md R20). -/
def State.emitted (s : State) : Instr → List Item
  | .getTime _ _ => s.frameItems (dspGetTime s.pendingHeader s.pendingPayload)
  | .getSize _ _ => s.frameItems (dspGetSize s.cfg s.pendingHeader s.pendingPayload)
  | .getStat _ _ => s.frameItems (dspGetStat s.pendingHeader s.pendingPayload)
  | .setData _ _ => s.frameItems (dspSetData s.pendingHeader s.pendingPayload)
  | .clearData _ _ => s.frameItems (dspClearData s.pendingHeader s.pendingPayload)
  | .unknownKind _ _ _ => s.frameItems dspUnknown
  | .lenMismatch _ _ _ => s.frameItems (dspLenMismatch s.pendingHeader)
  | .dispatch => s.frameItems (dsp s.cfg s.pendingHeader s.pendingPayload)
  | .connected => [.evConnected]
  | .connError => [.evConnError]
  | .disconnected => [.evDisconnected]
  | .srcError => [.report .srcError]
  | _ => []

/-- The trace only grows, by the items emitted. -/
theorem State.effect_out (s : State) (i : Instr) : (s.effect i).out = s.out ++ s.emitted i := by
  cases i
  case getTime | getSize | getStat | setData | clearData | unknownKind | lenMismatch | dispatch => rfl
  case connected | connError | disconnected | srcError => rfl
  all_goals exact (List.append_nil s.out).symm

/-- What the dispatcher may answer for a frame: at most one item, of a kind that DISPATCH and the frame rows performed
inside it emit (10_state.md R20, 42_dispatcher.md R108). -/
def DispatcherAnswer (items : List Item) : Prop :=
  items.length ≤ 1 ∧ ∀ x ∈ items, ∀ i, isDispatchedRow i = true ∨ i = .dispatch → emits i x = true

theorem dispatcherAnswer_nil : DispatcherAnswer [] := by simp [DispatcherAnswer]

theorem dispatcherAnswer_singleton {x : Item}
    (h : ∀ i, emits i x = (isDispatchedRow i || decide (i = .dispatch))) : DispatcherAnswer [x] := by
  simp [DispatcherAnswer, h]

theorem dspLenMismatch_answer (h : Header) : DispatcherAnswer (dspLenMismatch h) :=
  dispatcherAnswer_singleton fun _ => rfl

theorem dspGetTime_answer (h : Header) (p : List Byte) : DispatcherAnswer (dspGetTime h p) :=
  dispatcherAnswer_singleton fun _ => rfl

theorem dspGetStat_answer (h : Header) (p : List Byte) : DispatcherAnswer (dspGetStat h p) :=
  dispatcherAnswer_singleton fun _ => rfl

theorem dspSetData_answer (h : Header) (p : List Byte) : DispatcherAnswer (dspSetData h p) :=
  dispatcherAnswer_singleton fun _ => rfl

theorem dspGetSize_answer (c : Config) (h : Header) (p : List Byte) : DispatcherAnswer (dspGetSize c h p) := by
  unfold dspGetSize
  split
  · exact dispatcherAnswer_singleton fun _ => rfl
  · exact dspLenMismatch_answer h

theorem dspClearData_answer (h : Header) (p : List Byte) : DispatcherAnswer (dspClearData h p) := by
  unfold dspClearData
  split
  · exact dispatcherAnswer_singleton fun _ => rfl
  · exact dspLenMismatch_answer h

theorem dsp_answer (c : Config) (h : Header) (p : List Byte) : DispatcherAnswer (dsp c h p) := by
  unfold dsp
  split_ifs
  · exact dspGetTime_answer h p
  · exact dspGetSize_answer c h p
  · exact dspGetStat_answer h p
  · exact dspSetData_answer h p
  · exact dspClearData_answer h p
  · exact dispatcherAnswer_nil

/-- The items of a handed-over frame come from the row that hands it over. -/
theorem State.frameItems_emits (s : State) {items : List Item} (h : DispatcherAnswer items) {i : Instr}
    (hi : isDispatchedRow i = true ∨ i = .dispatch) :
    (s.frameItems items).length ≤ 2 ∧ ∀ x ∈ s.frameItems items, emits i x = true := by
  obtain ⟨hlen, hitems⟩ := h
  refine ⟨Nat.succ_le_succ hlen, fun x hx => ?_⟩
  obtain rfl | hx := List.mem_cons.1 hx
  · simpa [emits] using hi
  · exact hitems x hx i hi

/-- An operation emits at most two items, each of a kind that the table of 10_state.md R20 gives it. -/
theorem State.emitted_emits (s : State) (i : Instr) :
    (s.emitted i).length ≤ 2 ∧ ∀ x ∈ s.emitted i, emits i x = true := by
  cases i
  case getTime => exact s.frameItems_emits (dspGetTime_answer _ _) (.inl rfl)
  case getSize => exact s.frameItems_emits (dspGetSize_answer _ _ _) (.inl rfl)
  case getStat => exact s.frameItems_emits (dspGetStat_answer _ _) (.inl rfl)
  case setData => exact s.frameItems_emits (dspSetData_answer _ _) (.inl rfl)
  case clearData => exact s.frameItems_emits (dspClearData_answer _ _) (.inl rfl)
  case unknownKind => exact s.frameItems_emits dispatcherAnswer_nil (.inl rfl)
  case lenMismatch => exact s.frameItems_emits (dspLenMismatch_answer _) (.inl rfl)
  case dispatch => exact s.frameItems_emits (dsp_answer _ _ _) (.inr rfl)
  case connected | connError | disconnected | srcError => simp [State.emitted, emits]
  all_goals simp [State.emitted]

/-- Settles O49: the items are those of `State.emitted`. -/
theorem itemsComeFromTheirOperations : Obligations.ItemsComeFromTheirOperations := by
  intro i s t h
  obtain ⟨-, -, rfl⟩ := (exec_eq_next_iff i s t).1 h
  exact ⟨s.emitted i, s.effect_out i, s.emitted_emits i⟩

/-! ### What the clears leave -/

/-- CONNECTED, DISCONNECTED and RESET leave slot, flag and buffer cleared (10_state.md R24). -/
theorem State.effect_cleared (s : State) {i : Instr} (hi : i = .reset ∨ i = .connected ∨ i = .disconnected) :
    (s.effect i).cur = Slot.empty ∧ (s.effect i).resync = false ∧ (s.effect i).buf = [] := by
  rcases hi with rfl | rfl | rfl <;> exact ⟨rfl, rfl, rfl⟩

/-- A cleared slot and flag are the mode AWAIT_HEADER (10_state.md R14). -/
theorem State.mode_of_cleared {s : State} (hc : s.cur = Slot.empty) (hr : s.resync = false) :
    s.mode = .awaitHeader :=
  s.mode_eq_awaitHeader_iff.2 ⟨by rw [hc, Slot.empty_typeTag], hr⟩

/-- No operation writes the parameters (20_memory.md R45). -/
@[simp] theorem State.effect_cfg (s : State) (i : Instr) : (s.effect i).cfg = s.cfg := by cases i <;> rfl

/-- Settles O35, by what the three clears share. -/
theorem resetValues : Obligations.ResetValues := by
  refine ⟨fun c => ⟨rfl, rfl, rfl, State.mode_of_cleared rfl rfl, rfl, rfl, rfl⟩, fun i s t hi h => ?_,
    fun s t h => ?_, fun i s t hi h => ?_⟩
  · obtain ⟨-, -, rfl⟩ := (exec_eq_next_iff i s t).1 h
    obtain ⟨hcur, hflag, hbuf⟩ := s.effect_cleared hi
    exact ⟨hcur, hflag, State.mode_of_cleared hcur hflag, hbuf, s.effect_cfg i, s.emitted i, (s.effect_out i).symm⟩
  · obtain ⟨-, -, rfl⟩ := (exec_eq_next_iff _ s t).1 h
    exact ⟨rfl, rfl⟩
  · obtain ⟨-, -, rfl⟩ := (exec_eq_next_iff i s t).1 h
    rcases hi with rfl | rfl <;> rfl

/-! ### What a transition consumes -/

/-- An enabled operation never takes more bytes than are buffered. -/
theorem State.cursorAdvance_le_of_enabled {s : State} {i : Instr} (h : s.enabled i) :
    s.cursorAdvance i ≤ s.buf.length := by
  have frame {t st n : Nat} (hf : s.frameGuard t st n) : s.cur.length ≤ s.buf.length := hf.1.2
  cases i
  case getTime | getSize | getStat | setData | clearData => exact frame h
  case unknownKind | lenMismatch => exact frame h.1
  case dispatch => exact h.2
  case nullHeader | hdrAccept | hdrNull =>
    obtain ⟨⟨-, hlen, -⟩, -⟩ := h
    exact hlen
  case hdrMismatch =>
    obtain ⟨-, hlen, -⟩ := h
    exact (one_le_two.trans (two_le_headerSize s.cfg)).trans hlen
  case resyncSkip =>
    obtain ⟨-, hlen, -⟩ := h
    exact one_le_two.trans hlen
  all_goals exact Nat.zero_le _

/-- A reassembler or frame row takes its stated bytes off the head and writes nothing else but slot, flag and trace. -/
theorem State.effect_of_transition (s : State) {i : Instr}
    (hi : isRsmRow i = true ∨ isDispatchedRow i = true ∨ ∃ st n, i = .nullHeader st n) :
    s.effect i = { s with
      buf := s.buf.drop (s.cursorAdvance i), cur := (s.effect i).cur, resync := (s.effect i).resync,
      out := (s.effect i).out } := by
  cases i
  case deliver | connected | connError | disconnected | srcError | reset | encHdr | decHdr | encReq | encReqText =>
    simp [isRsmRow, isDispatchedRow] at hi
  all_goals rfl

/-- Settles O47: a byte read after the transition is the one its count further on before it. -/
theorem transitionsConsumeStatedBytes : Obligations.TransitionsConsumeStatedBytes := by
  intro i s t hi h
  obtain ⟨-, hen, rfl⟩ := (exec_eq_next_iff i s t).1 h
  rw [s.effect_of_transition hi]
  exact ⟨State.cursorAdvance_le_of_enabled hen, rfl, fun _ => List.getElem?_drop, rfl, rfl, rfl, rfl⟩

/-! ### Who writes the slot and the flag -/

/-- The writers of the slot (10_state.md R23); every other operation keeps it. -/
theorem State.effect_cur_eq_or (s : State) (i : Instr) :
    (s.effect i).cur = s.cur ∨ (∃ a b n, i = .hdrAccept a b n) ∨ i = .dispatch ∨ isDispatchedRow i = true ∨
      i = .connected ∨ i = .disconnected ∨ i = .reset := by
  cases i
  case hdrAccept a b n => exact .inr (.inl ⟨a, b, n, rfl⟩)
  case getTime | getSize | getStat | setData | clearData | unknownKind | lenMismatch => simp [isDispatchedRow]
  case dispatch | connected | disconnected | reset => simp
  all_goals exact .inl rfl

/-- The writers of the flag (10_state.md R15), each with what it writes; every other operation keeps it. -/
theorem State.effect_resync_eq_or (s : State) (i : Instr) :
    (s.effect i).resync = s.resync ∨ (∃ a b, i = .hdrMismatch a b ∧ (s.effect i).resync = true) ∨
      ((s.effect i).resync = false ∧
        (i = .resyncFound ∨ i = .resyncEnd ∨ i = .connected ∨ i = .disconnected ∨ i = .reset)) := by
  cases i
  case hdrMismatch a b => exact .inr (.inl ⟨a, b, rfl, rfl⟩)
  case resyncFound | resyncEnd | connected | disconnected | reset => exact .inr (.inr ⟨rfl, by simp⟩)
  all_goals exact .inl rfl

/-- Settles O48: an operation that changes the one or the other is none of those that keep it. -/
theorem slotAndFlagWriters : Obligations.SlotAndFlagWriters := by
  intro i s t h
  obtain ⟨-, -, rfl⟩ := (exec_eq_next_iff i s t).1 h
  exact ⟨(s.effect_cur_eq_or i).resolve_left, (s.effect_resync_eq_or i).resolve_left⟩

/-! ### What nothing reads: the status -/

/-- `s` with another pending status. -/
def State.withStatus (s : State) (x : Nat) : State := { s with cur := { s.cur with status := x } }

/-- What the next step runs does not depend on the pending status. -/
theorem State.nextRow_withStatus (s : State) (x : Nat) : (s.withStatus x).nextRow = s.nextRow := rfl

theorem dspGetSize_eraseStatus (c : Config) (h : Header) (p : List Byte) (x : Nat) :
    (dspGetSize c { h with status := x } p).map Item.eraseStatus = (dspGetSize c h p).map Item.eraseStatus := by
  unfold dspGetSize
  split <;> rfl

theorem dspClearData_eraseStatus (h : Header) (p : List Byte) (x : Nat) :
    (dspClearData { h with status := x } p).map Item.eraseStatus = (dspClearData h p).map Item.eraseStatus := by
  unfold dspClearData
  split <;> rfl

/-- The dispatcher's choice and all it says but the status do not depend on the header's status. -/
theorem dsp_eraseStatus (c : Config) (h : Header) (p : List Byte) (x : Nat) :
    (dsp c { h with status := x } p).map Item.eraseStatus = (dsp c h p).map Item.eraseStatus := by
  unfold dsp
  split_ifs
  · rfl
  · exact dspGetSize_eraseStatus c h p x
  · rfl
  · rfl
  · exact dspClearData_eraseStatus h p x
  · rfl

/-- The FRAME item itself carries the status and nothing else that depends on it. -/
theorem State.frameItems_withStatus (s : State) (x : Nat) {items items' : List Item}
    (h : items'.map Item.eraseStatus = items.map Item.eraseStatus) :
    ((s.withStatus x).frameItems items').map Item.eraseStatus = (s.frameItems items).map Item.eraseStatus :=
  congrArg (List.cons _) h

/-- The items emitted with another pending status differ only in the statuses inside them. -/
theorem State.emitted_withStatus (s : State) (x : Nat) (i : Instr) :
    ((s.withStatus x).emitted i).map Item.eraseStatus = (s.emitted i).map Item.eraseStatus := by
  cases i
  case getSize => exact s.frameItems_withStatus x (dspGetSize_eraseStatus s.cfg s.pendingHeader s.pendingPayload x)
  case clearData => exact s.frameItems_withStatus x (dspClearData_eraseStatus s.pendingHeader s.pendingPayload x)
  case dispatch => exact s.frameItems_withStatus x (dsp_eraseStatus s.cfg s.pendingHeader s.pendingPayload x)
  all_goals rfl

/-- Beside the trace, an operation's effect with another pending status differs at most in that status. -/
theorem State.effect_withStatus (s : State) (x : Nat) (i : Instr) :
    (s.withStatus x).effect i = { s.effect i with
      cur := { (s.effect i).cur with status := ((s.withStatus x).effect i).cur.status }
      out := ((s.withStatus x).effect i).out } := by
  cases i <;> rfl

/-- Settles O58: both steps run the same row, and its effect is the same up to statuses. -/
theorem statusIsOpaque : Obligations.StatusIsOpaque := by
  intro s t t' x hcall ht ht'
  obtain ⟨-, -, rfl⟩ := (exec_eq_next_iff _ _ _).1 (step_of_no_call s hcall ▸ ht)
  obtain ⟨-, -, rfl⟩ := (exec_eq_next_iff _ _ _).1 (step_of_no_call (s.withStatus x) hcall ▸ ht')
  rw [s.nextRow_withStatus x]
  have hout : ((s.withStatus x).effect s.nextRow).out.map Item.eraseStatus
      = (s.effect s.nextRow).out.map Item.eraseStatus := by
    rw [State.effect_out, State.effect_out, List.map_append, List.map_append, s.emitted_withStatus x]
    rfl
  rw [s.effect_withStatus x]
  exact ⟨rfl, rfl, rfl, rfl, rfl, rfl, rfl, rfl, rfl, hout⟩

/-! ### What nothing reads: the trace and the ghost -/

/-- `s` with another output trace and another ghost. -/
def State.withHistory (s : State) (o : List Item) (a : List Byte) : State := { s with out := o, arrived := a }

/-- What the next step runs does not depend on the history. -/
theorem State.nextRow_withHistory (s : State) (o : List Item) (a : List Byte) :
    (s.withHistory o a).nextRow = s.nextRow := rfl

/-- No guard reads the history. -/
theorem State.enabled_withHistory (s : State) (o : List Item) (a : List Byte) (i : Instr) :
    (s.withHistory o a).enabled i = s.enabled i := by
  cases i <;> rfl

/-- What is emitted does not depend on the history. -/
theorem State.emitted_withHistory (s : State) (o : List Item) (a : List Byte) (i : Instr) :
    (s.withHistory o a).emitted i = s.emitted i := by
  cases i <;> rfl

/-- With another history an operation does the same to everything but the history. -/
theorem State.effect_withHistory (s : State) (o : List Item) (a : List Byte) (i : Instr) :
    (s.withHistory o a).effect i =
      (s.effect i).withHistory (o ++ s.emitted i) ((s.withHistory o a).effect i).arrived := by
  have hkeep : (s.withHistory o a).effect i = (s.effect i).withHistory
      ((s.withHistory o a).effect i).out ((s.withHistory o a).effect i).arrived := by
    cases i <;> rfl
  have hout : ((s.withHistory o a).effect i).out = o ++ s.emitted i := by
    rw [State.effect_out, s.emitted_withHistory o a]
    rfl
  rwa [hout] at hkeep

/-- An operation completes with any history where it completes with one, and emits the same items. -/
theorem exec_withHistory {i : Instr} {s t : State} (h : exec i s = .next t) (o : List Item) (a : List Byte) :
    t.out = s.out ++ s.emitted i ∧
      ∃ a', exec i (s.withHistory o a) = .next (t.withHistory (o ++ s.emitted i) a') := by
  obtain ⟨hwf, hen, rfl⟩ := (exec_eq_next_iff i s t).1 h
  refine ⟨s.effect_out i, ((s.withHistory o a).effect i).arrived, ?_⟩
  rw [← s.effect_withHistory o a i]
  exact exec_of_enabled i _ hwf ((s.enabled_withHistory o a i).mpr hen)

/-- Settles O59: the same row runs, and it reads no history. -/
theorem historyIsNeverRead : Obligations.HistoryIsNeverRead := by
  intro s t o a h
  obtain ⟨hout, a', h'⟩ := exec_withHistory h o a
  refine ⟨_, a', hout, ?_⟩
  rw [← s.nextRow_withHistory o a] at h'
  exact h'

/-! ### Several connections -/

/-- A step keeps the parameters (20_memory.md R45). -/
theorem step_cfg {s t : State} (h : step s = .next t) : t.cfg = s.cfg := by
  obtain ⟨-, -, rfl⟩ := (exec_eq_next_iff _ _ t).1 h
  rw [State.effect_cfg]

/-- A connection replaced by one with the shared parameters keeps them shared. -/
theorem System.shared_setInstance {sys : System} (hs : sys.shared) (k : Nat) {t : State} (ht : t.cfg = sys.cfg) :
    (sys.setInstance k t).shared := by
  intro u hu
  obtain hu | rfl := List.mem_or_eq_of_mem_set hu
  · exact hs u hu
  · exact ht

/-- Settles O60, from the inversion of `System.stepAt`. -/
theorem instancesAreIndependent : Obligations.InstancesAreIndependent := by
  refine ⟨fun c n => ?_, fun sys sys' k h => ?_, fun sys k s t hs hk ht => ?_⟩
  · have hall : ∀ s ∈ (System.resetWith c n).instances, s = State.resetWith c := fun _ => List.eq_of_mem_replicate
    exact ⟨rfl, fun s hs => congrArg State.cfg (hall s hs), List.length_replicate, hall⟩
  · obtain ⟨hs, s, t, hk, ht, rfl⟩ := (sys.stepAt_eq_some_iff sys' k).1 h
    have hcfg : t.cfg = sys.cfg := (step_cfg ht).trans (hs s (List.mem_of_getElem? hk))
    obtain ⟨hlt, -⟩ := List.getElem?_eq_some_iff.1 hk
    exact ⟨rfl, hs, System.shared_setInstance hs k hcfg, List.length_set,
      fun j hj => List.getElem?_set_ne hj.symm, s, t, hk, ht, List.getElem?_set_self hlt⟩
  · exact ⟨_, (sys.stepAt_eq_some_iff _ k).2 ⟨hs, s, t, hk, ht, rfl⟩⟩

end Sys2Proof.Machine
end

section
/-! The proofs about the storage (20_memory.md): the primitives on the input buffer, what an operation cannot change of
the machine, and that an event issued while there is something to do only waits. -/

namespace Sys2Proof.Machine

/-! ### The buffer's primitives -/

/-- A read is defined exactly where its bytes are buffered, and which bytes it gives (20_memory.md R36). -/
theorem Memory.read_eq_some_iff (m : Memory) (off n : Nat) (s : List Byte) :
    m.read off n = some s ↔ off + n ≤ m.length ∧ slice m off n = s := by
  unfold Memory.read
  split <;> simp [*]

theorem slice_length {m : List Byte} {off n : Nat} (h : off + n ≤ m.length) : (slice m off n).length = n := by
  simp only [slice, List.length_take, List.length_drop]
  omega

theorem slice_getElem? (m : List Byte) (off : Nat) {n i : Nat} (h : i < n) : (slice m off n)[i]? = m[off + i]? := by
  rw [slice, List.getElem?_take_of_lt h, List.getElem?_drop]

/-- Bytes put behind the buffered ones are not seen by a read of buffered bytes. -/
theorem slice_append_left {m : List Byte} (x : List Byte) {off n : Nat} (h : off + n ≤ m.length) :
    slice (m ++ x) off n = slice m off n := by
  have hoff : off ≤ m.length := by omega
  have hn : n ≤ (m.drop off).length := by rw [List.length_drop]; omega
  rw [slice, slice, List.drop_append_of_le_length hoff, List.take_append_of_le_length hn]

/-- Settles O10: a defined read is a slice, and the rest are the list's own laws. -/
theorem bufferPrimitives : Obligations.BufferPrimitives := by
  intro m x off n k
  refine ⟨by simp [Memory.read_eq_some_iff], fun s hs => ?_, List.getElem?_append,
    fun _ => ⟨List.length_drop, List.getElem?_drop⟩⟩
  obtain ⟨hle, rfl⟩ := (m.read_eq_some_iff off n s).1 hs
  have hle' : off + n ≤ (m.append x).length := hle.trans (by simp [Memory.append])
  exact ⟨slice_length hle, fun i hi => slice_getElem? m off hi,
    ((m.append x).read_eq_some_iff off n _).2 ⟨hle', slice_append_left x hle⟩⟩

/-! ### What no operation and what no codec function changes -/

/-- Settles O46, by `State.effect_cfg`. -/
theorem parametersNeverChange : Obligations.ParametersNeverChange := by
  intro i s t h
  obtain ⟨-, -, rfl⟩ := (exec_eq_next_iff i s t).1 h
  exact s.effect_cfg i

/-- All a codec function does is to hand back a result (20_memory.md R46). -/
theorem State.effect_of_codec (s : State) {i : Instr} (hi : isCodecRow i = true) : ∃ r, s.effect i = s.giveBack r := by
  cases i
  case encHdr | decHdr | encReq | encReqText => exact ⟨_, rfl⟩
  all_goals exact Bool.noConfusion hi

/-- Settles O9: handing back a result writes none of the machine's fields. -/
theorem codecLeavesMachineAlone : Obligations.CodecLeavesMachineAlone := by
  intro i s t hi h
  obtain ⟨-, -, rfl⟩ := (exec_eq_next_iff i s t).1 h
  obtain ⟨r, hr⟩ := s.effect_of_codec hi
  rw [hr]
  exact ⟨rfl, rfl, rfl, rfl, rfl, rfl, rfl, rfl, fun _ => rfl⟩

/-! ### An issued event -/

/-- The reassembler's reading of the buffer is one of its own nine rows (41_reassembler.md R89). -/
theorem isRsmRow_rsmRow (c : Config) (mode : Mode) (pending : Nat) (buf : List Byte) :
    isRsmRow (Sys2Proof.rsmRow c mode pending buf) = true := by
  cases mode <;> simp only [Sys2Proof.rsmRow] <;> split_ifs <;> rfl

theorem State.rsmRow_ne_reset (s : State) : s.rsmRow ≠ .reset := fun h => by
  have hrow : isRsmRow s.rsmRow = true := isRsmRow_rsmRow s.cfg s.mode s.cur.length s.buf
  rw [h] at hrow
  exact Bool.noConfusion hrow

theorem eventRow_ne_reset (e : Event) : eventRow e ≠ .reset := by cases e <;> exact Instr.noConfusion

theorem callRow_ne_reset {k : Call} (hk : k ≠ .reset) : callRow k ≠ .reset := by
  cases k
  case reset => exact absurd rfl hk
  all_goals exact Instr.noConfusion

theorem State.quietRow_ne_reset (s : State) : s.quietRow ≠ .reset := by
  unfold State.quietRow
  split
  · exact s.rsmRow_ne_reset
  · split
    · exact eventRow_ne_reset _
    · exact s.rsmRow_ne_reset

/-- RESET runs only where the outside asks for it: it is no input event (60_exceptions.md R123). -/
theorem State.nextRow_ne_reset {s : State} (hs : s.call ≠ some .reset) : s.nextRow ≠ .reset := by
  unfold State.nextRow
  split
  next k hk => exact callRow_ne_reset fun h => hs (h ▸ hk)
  next =>
    split
    · exact s.quietRow_ne_reset
    · exact s.rsmRow_ne_reset

/-- With an event waiting, one issued behind it is not looked at (60_exceptions.md R138). -/
theorem State.quietRow_issue {s : State} (h : s.inq ≠ []) (e : Event) : (s.issue e).quietRow = s.quietRow := by
  obtain ⟨x, xs, hx⟩ := List.exists_cons_of_ne_nil h
  simp only [State.quietRow, State.issue_inq, hx, List.cons_append]
  rfl

/-- While there is something to do, an event issued does not change what the next step runs. -/
theorem State.nextRow_issue {s : State} (h : s.call ≠ none ∨ ¬ s.quiescent ∨ s.inq ≠ []) (e : Event) :
    (s.issue e).nextRow = s.nextRow := by
  by_cases hc : s.call = none
  · by_cases hq : s.quiescent
    · have hinq : s.inq ≠ [] := (h.resolve_left (not_not_intro hc)).resolve_left (not_not_intro hq)
      rw [s.nextRow_of_quiescent hc hq, (s.issue e).nextRow_of_quiescent hc hq, State.quietRow_issue hinq]
    · rw [s.nextRow_of_not_quiescent hc hq, (s.issue e).nextRow_of_not_quiescent hc hq]
      rfl
  · obtain ⟨k, hk⟩ := Option.ne_none_iff_exists'.1 hc
    simp only [State.nextRow, State.issue_call, hk]

theorem State.inq_ne_nil_of_takeGuard {s : State} {x : Event} (h : s.takeGuard x) : s.inq ≠ [] := fun hnil => by
  obtain ⟨hhead, -⟩ := h
  simp [hnil] at hhead

/-- An event that can be taken can be taken with another one issued behind it. -/
theorem State.takeGuard_issue {s : State} {x : Event} (h : s.takeGuard x) (e : Event) : (s.issue e).takeGuard x := by
  obtain ⟨hhead, hq, hfits⟩ := h
  exact ⟨by simp [hhead], hq, hfits⟩

/-- Taking the head off and issuing at the tail commute. -/
theorem State.dequeue_issue {s : State} (h : s.inq ≠ []) (e : Event) : (s.issue e).dequeue = s.dequeue.issue e := by
  simp only [State.dequeue, State.issue, List.tail_append_of_ne_nil h]

/-- No operation is disabled by an event issued. -/
theorem State.enabled_issue {s : State} {i : Instr} (h : s.enabled i) (e : Event) : (s.issue e).enabled i := by
  cases i
  case deliver | connected | connError | disconnected | srcError => exact State.takeGuard_issue h e
  all_goals exact h

/-- An enabled operation other than RESET, which clears the queue, leaves an event issued where it is. -/
theorem State.effect_issue {s : State} {i : Instr} (hi : i ≠ .reset) (h : s.enabled i) (e : Event) :
    (s.issue e).effect i = (s.effect i).issue e := by
  have take {x : Event} (hx : s.takeGuard x) : (s.issue e).dequeue = s.dequeue.issue e :=
    State.dequeue_issue (State.inq_ne_nil_of_takeGuard hx) e
  cases i
  case reset => exact absurd rfl hi
  case deliver | connected | connError | disconnected | srcError =>
    simp only [State.effect, take h]
    rfl
  all_goals rfl

/-- Issuing an event commutes with every operation but RESET. -/
theorem exec_issue {i : Instr} {s t : State} (hi : i ≠ .reset) (h : exec i s = .next t) (e : Event) :
    exec i (s.issue e) = .next (t.issue e) := by
  obtain ⟨hwf, hen, rfl⟩ := (exec_eq_next_iff i s t).1 h
  rw [← State.effect_issue hi hen e]
  exact exec_of_enabled i _ hwf (State.enabled_issue hen e)

/-- Settles O52: the same row runs, it is not RESET, and it commutes with the issuing. -/
theorem issuedEventOnlyWaits : Obligations.IssuedEventOnlyWaits := by
  intro s t e hreset hbusy h
  have hrow : (s.issue e).nextRow = s.nextRow := State.nextRow_issue hbusy e
  have hexec : exec s.nextRow (State.issue { s with call := none } e) = .next (t.issue e) :=
    exec_issue (State.nextRow_ne_reset hreset) h e
  rw [← hrow] at hexec
  exact hexec

end Sys2Proof.Machine
end

section
/-! The proofs about the encoding (30_encoding.md): the byte functions `B` and `U` of 00_scope.md R6 undo each other,
the marker test is a comparison of the first two bytes, and where a byte stands in a flat vector. -/

namespace Sys2Proof.Machine

/-! ### Bytes and their value -/

theorem be_beBytes {n v : Nat} (h : v < 256 ^ n) : be (beBytes n v) = v := by
  rw [beBytes, be_eq_le_reverse, List.reverse_reverse, le_leBytes n v h]

theorem beBytes_be (s : List Byte) : beBytes s.length (be s) = s := by
  have h : leBytes s.length (le s.reverse) = s.reverse := by simpa using leBytes_le s.reverse
  rw [beBytes, be_eq_le_reverse, h, List.reverse_reverse]

theorem valueOf_bytesOf (c : Config) {n v : Nat} (h : v < 256 ^ n) : valueOf c (bytesOf c n v) = v := by
  unfold valueOf bytesOf
  cases c.order
  · exact be_beBytes h
  · exact le_leBytes n v h

theorem bytesOf_valueOf (c : Config) (s : List Byte) : bytesOf c s.length (valueOf c s) = s := by
  unfold valueOf bytesOf
  cases c.order
  · exact beBytes_be s
  · exact leBytes_le s

/-- Comparing with the bytes of a value is comparing values. -/
theorem eq_bytesOf_iff (c : Config) (s : List Byte) {v : Nat} (h : v < 256 ^ s.length) :
    s = bytesOf c s.length v ↔ valueOf c s = v := by
  refine ⟨fun hs => (congrArg (valueOf c) hs).trans (valueOf_bytesOf c h), fun hv => ?_⟩
  rw [← hv, bytesOf_valueOf]

/-! ### The marker test -/

/-- The two bytes of the 16-bit marker are `M0`, `M1` in either byte order (30_encoding.md R54). -/
theorem bytesOf_marker (c : Config) : bytesOf c 2 c.marker.toNat = [markerByte0 c, markerByte1 c] := by
  have hlow : BitVec.ofNat 8 c.marker.toNat = c.marker.extractLsb' 0 8 := by
    apply BitVec.eq_of_toNat_eq
    simp
  have hhigh : BitVec.ofNat 8 (c.marker.toNat / 256) = c.marker.extractLsb' 8 8 := by
    apply BitVec.eq_of_toNat_eq
    simp [Nat.shiftRight_eq_div_pow]
  have hle : leBytes 2 c.marker.toNat = [c.marker.extractLsb' 0 8, c.marker.extractLsb' 8 8] := by
    simp only [leBytes, hlow, hhigh]
  unfold bytesOf markerByte0 markerByte1
  cases c.order
  · exact congrArg List.reverse hle
  · exact hle

theorem markerMatches_iff_getElem? (c : Config) (s : List Byte) : markerMatches c s = true ↔
    2 ≤ s.length ∧ s[0]? = some (markerByte0 c) ∧ s[1]? = some (markerByte1 c) := by
  rcases s with _ | ⟨b0, _ | ⟨b1, s⟩⟩ <;> simp [markerMatches]

theorem markerMatches_iff_take (c : Config) (s : List Byte) : markerMatches c s = true ↔
    2 ≤ s.length ∧ s.take 2 = bytesOf c 2 c.marker.toNat := by
  rw [bytesOf_marker]
  rcases s with _ | ⟨b0, _ | ⟨b1, s⟩⟩ <;> simp [markerMatches]

/-- Settles O2: two bytes are those of the marker exactly where their value is the marker. -/
theorem markerMatchIsFirstTwoBytes : Obligations.MarkerMatchIsFirstTwoBytes := by
  intro c s
  refine ⟨(bytesOf_marker c).symm, markerMatches_iff_getElem? c s, (markerMatches_iff_take c s).trans ?_⟩
  refine and_congr_right fun hlen => ?_
  have htake : (s.take 2).length = 2 := by simp [hlen]
  have hvalue := eq_bytesOf_iff c (s.take 2) (v := c.marker.toNat) (by rw [htake]; exact c.marker.isLt)
  rwa [htake] at hvalue

/-! ### The flat vector -/

theorem two_pow_eight_mul (n : Nat) : 2 ^ (8 * n) = 256 ^ n := Nat.pow_mul 2 8 n

/-- Dividing away the bytes behind leaves the value of those in front. -/
theorem be_append_div (s t : List Byte) : be (s ++ t) / 256 ^ t.length = be s := by
  rw [be_append, Nat.add_comm, Nat.add_mul_div_right _ _ (by positivity), Nat.div_eq_of_lt (be_lt t), Nat.zero_add]

theorem be_concat_mod (s : List Byte) (b : Byte) : be (s ++ [b]) % 256 = b.toNat := by
  have hb := b.isLt
  simp only [be_append, be_cons, be_nil, List.length_cons, List.length_nil]
  omega

/-- The bytes behind byte `k` are divided away, and of what is left it is the last byte (30_encoding.md R52). -/
theorem be_div_mod (s : List Byte) {k : Nat} (hk : k < s.length) :
    be s / 256 ^ (s.length - 1 - k) % 256 = (s[k]).toNat := by
  have hrest : (s.drop (k + 1)).length = s.length - 1 - k := by rw [List.length_drop]; omega
  calc be s / 256 ^ (s.length - 1 - k) % 256
      = be (s.take (k + 1) ++ s.drop (k + 1)) / 256 ^ (s.drop (k + 1)).length % 256 := by
        rw [List.take_append_drop, hrest]
    _ = be (s.take k ++ [s[k]]) % 256 := by rw [be_append_div, List.take_append_getElem]
    _ = (s[k]).toNat := be_concat_mod _ _

theorem Header.wellTyped_iff (c : Config) (h : Header) : h.wellTyped c = true ↔
    h.typeTag < 256 ^ c.tb ∧ h.status < 256 ^ c.sb ∧ h.length < 256 ^ c.lb := by
  simp only [Header.wellTyped, fieldsFit, tagFits, statusFits, lengthFits, Bool.and_eq_true, decide_eq_true_eq,
    and_assoc]
  rfl

/-- In BIG order the encoded fields stand side by side, the marker most significant (30_encoding.md R52). -/
theorem be_encodeHeader {c : Config} {h : Header} (ho : c.order = .big) (ht : h.wellTyped c = true) :
    be (encodeHeader c h)
      = ((h.marker.toNat * 256 ^ c.tb + h.typeTag) * 256 ^ c.sb + h.status) * 256 ^ c.lb + h.length := by
  obtain ⟨htag, hstatus, hlength⟩ := (Header.wellTyped_iff c h).1 ht
  have hmarker : h.marker.toNat < 256 ^ 2 := h.marker.isLt
  simp only [encodeHeader, bytesOf, ho, be_append, beBytes_length, be_beBytes hmarker, be_beBytes htag,
    be_beBytes hstatus, be_beBytes hlength]

/-- Settles O4: `be` reads base 256 digits, and `2^(8*n)` is `256^n`. -/
theorem flatVectorBitPositions : Obligations.FlatVectorBitPositions := by
  refine ⟨fun s k hk => ?_, fun n hv h => ?_, fun c h ho ht => ?_⟩
  · rw [two_pow_eight_mul]
    exact be_div_mod s hk
  · rw [two_pow_eight_mul] at h
    exact ⟨beBytes_length n hv, be_beBytes h⟩
  · simp only [two_pow_eight_mul]
    exact be_encodeHeader ho ht

end Sys2Proof.Machine
end

section
/-! The proofs about the header codec (40_header_codec.md): field assembly undoes encoding and encoding undoes field
assembly, the laws of R72 follow, and the four codec functions answer what they say of a header. -/

namespace Sys2Proof.Machine

/-! ### Values of byte sequences -/

theorem valueOf_lt (c : Config) (s : List Byte) : valueOf c s < 256 ^ s.length := by
  unfold valueOf
  cases c.order
  · exact be_lt s
  · exact le_lt s

/-- An `n`-byte field stays in range when it is valued in another byte order. -/
theorem valueOf_bytesOf_lt (d c : Config) (n v : Nat) : valueOf d (bytesOf c n v) < 256 ^ n := by
  simpa only [bytesOf_length] using valueOf_lt d (bytesOf c n v)

/-- The other byte order reads the reversed bytes (00_scope.md R6). -/
theorem valueOf_other_order {c : Config} {o : ByteOrder} (ho : o ≠ c.order) (s : List Byte) :
    valueOf { c with order := o } s = valueOf c s.reverse := by
  unfold valueOf
  cases hc : c.order <;> cases o
  case big.big | little.little => exact absurd hc.symm ho
  case big.little => simp [be_eq_le_reverse]
  case little.big => exact be_eq_le_reverse s

/-- A field that the other byte order reads back is a byte palindrome (40_header_codec.md R72 (e)). -/
theorem bytesOf_palindrome {c : Config} {o : ByteOrder} (ho : o ≠ c.order) {n v : Nat} (hv : v < 256 ^ n)
    (h : valueOf { c with order := o } (bytesOf c n v) = v) : (bytesOf c n v).reverse = bytesOf c n v := by
  have hlen : (bytesOf c n v).reverse.length = n := by simp
  rw [valueOf_other_order ho] at h
  have hback := (eq_bytesOf_iff c (bytesOf c n v).reverse (by rwa [hlen])).2 h
  rwa [hlen] at hback

/-! ### Field assembly and encoding -/

theorem slice_zero {s : List Byte} {n : Nat} (h : s.length = n) : slice s 0 n = s := by
  simp [slice, ← h]

/-- The bytes behind the first `off` are the slice at `off`. -/
theorem slice_append_right {a b : List Byte} {off n : Nat} (ha : a.length = off) (hb : b.length = n) :
    slice (a ++ b) off n = b := by
  simp [slice, ← ha, ← hb]

/-- The first `m` bytes and the `n` behind them are the first `m + n`. -/
theorem slice_zero_append_slice (s : List Byte) (m n : Nat) : slice s 0 m ++ slice s m n = slice s 0 (m + n) := by
  simp only [slice, List.take_add, List.drop_zero]

/-- Each field of an encoded header is read off its own bytes, in whatever byte order it is then valued
(30_encoding.md R50, R51). -/
theorem headerAt_encodeHeader_order (c : Config) (o : ByteOrder) (h : Header) :
    headerAt { c with order := o } (encodeHeader c h) =
      { marker := BitVec.ofNat 16 (valueOf { c with order := o } (bytesOf c 2 h.marker.toNat))
        typeTag := valueOf { c with order := o } (bytesOf c c.tb h.typeTag)
        status := valueOf { c with order := o } (bytesOf c c.sb h.status)
        length := valueOf { c with order := o } (bytesOf c c.lb h.length) } := by
  have hmarker : slice (encodeHeader c h) 0 2 = bytesOf c 2 h.marker.toNat := by
    simp [encodeHeader, slice_append_left, slice_zero, Nat.add_assoc, -List.append_assoc]
  have htag : slice (encodeHeader c h) 2 c.tb = bytesOf c c.tb h.typeTag := by
    simp [encodeHeader, slice_append_left, slice_append_right, -List.append_assoc]
  have hstatus : slice (encodeHeader c h) (2 + c.tb) c.sb = bytesOf c c.sb h.status := by
    simp [encodeHeader, slice_append_left, slice_append_right, -List.append_assoc]
  have hlength : slice (encodeHeader c h) (2 + c.tb + c.sb) c.lb = bytesOf c c.lb h.length := by
    simp [encodeHeader, slice_append_right, -List.append_assoc]
  simp only [headerAt, typeOffset, statusOffset, lengthOffset, hmarker, htag, hstatus, hlength]

/-- Field assembly undoes encoding (40_header_codec.md R72 (a)). -/
theorem headerAt_encodeHeader {c : Config} {h : Header} (ht : h.wellTyped c = true) :
    headerAt c (encodeHeader c h) = h := by
  obtain ⟨htag, hstatus, hlength⟩ := (Header.wellTyped_iff c h).1 ht
  have hmarker : h.marker.toNat < 256 ^ 2 := h.marker.isLt
  have hfields := headerAt_encodeHeader_order c c.order h
  simpa only [valueOf_bytesOf c hmarker, valueOf_bytesOf c htag, valueOf_bytesOf c hstatus,
    valueOf_bytesOf c hlength, BitVec.ofNat_toNat, BitVec.setWidth_eq] using hfields

theorem valueOf_slice_lt (c : Config) {s : List Byte} {off n : Nat} (h : off + n ≤ s.length) :
    valueOf c (slice s off n) < 256 ^ n := by
  simpa only [slice_length h] using valueOf_lt c (slice s off n)

theorem bytesOf_valueOf_slice (c : Config) {s : List Byte} {off n : Nat} (h : off + n ≤ s.length) :
    bytesOf c n (valueOf c (slice s off n)) = slice s off n := by
  simpa only [slice_length h] using bytesOf_valueOf c (slice s off n)

/-- The four fields lie within the header (30_encoding.md R50). -/
theorem fields_within_header (c : Config) : 0 + 2 ≤ headerSize c ∧ typeOffset + c.tb ≤ headerSize c ∧
    statusOffset c + c.sb ≤ headerSize c ∧ lengthOffset c + c.lb ≤ headerSize c := by
  unfold headerSize typeOffset statusOffset lengthOffset
  omega

/-- The fields assembled from `H` bytes are in range (40_header_codec.md R71). -/
theorem headerAt_wellTyped {c : Config} {s : List Byte} (hs : headerSize c ≤ s.length) :
    (headerAt c s).wellTyped c = true := by
  obtain ⟨-, htag, hstatus, hlength⟩ := fields_within_header c
  exact (Header.wellTyped_iff c _).2 ⟨valueOf_slice_lt c (htag.trans hs), valueOf_slice_lt c (hstatus.trans hs),
    valueOf_slice_lt c (hlength.trans hs)⟩

/-- Encoding undoes field assembly: the field bytes side by side are the bytes again (40_header_codec.md R72 (b)). -/
theorem encodeHeader_headerAt {c : Config} {s : List Byte} (hs : s.length = headerSize c) :
    encodeHeader c (headerAt c s) = s := by
  obtain ⟨hmarker, htag, hstatus, hlength⟩ := hs ▸ fields_within_header c
  have hvalue : valueOf c (slice s 0 2) < 2 ^ 16 := valueOf_slice_lt c hmarker
  calc encodeHeader c (headerAt c s)
      = slice s 0 2 ++ slice s typeOffset c.tb ++ slice s (statusOffset c) c.sb ++ slice s (lengthOffset c) c.lb := by
        simp only [encodeHeader, headerAt, BitVec.toNat_ofNat, Nat.mod_eq_of_lt hvalue,
          bytesOf_valueOf_slice c hmarker, bytesOf_valueOf_slice c htag, bytesOf_valueOf_slice c hstatus,
          bytesOf_valueOf_slice c hlength]
    _ = slice s 0 (headerSize c) := by
        simp only [typeOffset, statusOffset, lengthOffset, headerSize, slice_zero_append_slice]
    _ = s := slice_zero hs

/-! ### DEC_HDR's result -/

theorem decodeHeader_of_lt {c : Config} {s : List Byte} (h : s.length < headerSize c) : decodeHeader c s = none :=
  if_pos h

theorem decodeHeader_of_le {c : Config} {s : List Byte} (h : headerSize c ≤ s.length) :
    decodeHeader c s = some (headerAt c s, headerSize c) :=
  if_neg h.not_gt

theorem decodeHeader_encodeHeader {c : Config} {h : Header} (ht : h.wellTyped c = true) :
    decodeHeader c (encodeHeader c h) = some (h, headerSize c) := by
  rw [decodeHeader_of_le (encodeHeader_length c h).ge, headerAt_encodeHeader ht]

theorem encodeHeader_injective {c : Config} {h k : Header} (hh : h.wellTyped c = true) (hk : k.wellTyped c = true)
    (heq : encodeHeader c h = encodeHeader c k) : h = k := by
  rw [← headerAt_encodeHeader hh, heq, headerAt_encodeHeader hk]

/-- A header that a decoder in the other byte order gives back has palindromes for fields
(40_header_codec.md R72 (e)). -/
theorem palindromes_of_decodeHeader_other_order {c : Config} {o : ByteOrder} {h : Header} (ho : o ≠ c.order)
    (ht : h.wellTyped c = true)
    (hdec : decodeHeader { c with order := o } (encodeHeader c h) = some (h, headerSize c)) :
    (bytesOf c 2 h.marker.toNat).reverse = bytesOf c 2 h.marker.toNat ∧
    (bytesOf c c.tb h.typeTag).reverse = bytesOf c c.tb h.typeTag ∧
    (bytesOf c c.sb h.status).reverse = bytesOf c c.sb h.status ∧
    (bytesOf c c.lb h.length).reverse = bytesOf c c.lb h.length := by
  obtain ⟨htag, hstatus, hlength⟩ := (Header.wellTyped_iff c h).1 ht
  have hlen : headerSize { c with order := o } ≤ (encodeHeader c h).length := (encodeHeader_length c h).ge
  rw [decodeHeader_of_le hlen, headerAt_encodeHeader_order] at hdec
  obtain ⟨hfields, -⟩ := Prod.mk.inj (Option.some.inj hdec)
  obtain ⟨hmarker, htag', hstatus', hlength'⟩ := Header.mk.inj hfields
  have hvalue : valueOf { c with order := o } (bytesOf c 2 h.marker.toNat) < 2 ^ 16 :=
    valueOf_bytesOf_lt _ c 2 h.marker.toNat
  have hmarker' : valueOf { c with order := o } (bytesOf c 2 h.marker.toNat) = h.marker.toNat := by
    simpa only [BitVec.toNat_ofNat, Nat.mod_eq_of_lt hvalue] using congrArg BitVec.toNat hmarker
  exact ⟨bytesOf_palindrome ho h.marker.isLt hmarker', bytesOf_palindrome ho htag htag',
    bytesOf_palindrome ho hstatus hstatus', bytesOf_palindrome ho hlength hlength'⟩

/-- Settles O3: `headerAt` and `encodeHeader` are inverse to each other on well-typed headers and `H` bytes. -/
theorem headerCodecLaws : Obligations.HeaderCodecLaws := by
  intro c _
  refine ⟨fun h ht => decodeHeader_encodeHeader ht, fun s hs => ?_, encodeHeader_length c,
    fun h k => encodeHeader_injective, fun o h => palindromes_of_decodeHeader_other_order⟩
  exact ⟨headerAt c s, decodeHeader_of_le hs.ge, headerAt_wellTyped hs.ge, encodeHeader_headerAt hs⟩

/-! ### The codec functions -/

/-- Settles O5: on a well-typed header ENC_HDR is enabled, and its effect is to hand the encoding back. -/
theorem encHdrGivesFieldBytes : Obligations.EncHdrGivesFieldBytes := by
  intro s h hwf ht
  exact exec_of_enabled (.encHdr h) s hwf ht

theorem exec_decHdr {s : State} (hwf : s.cfg.wf = true) (b : List Byte) :
    exec (.decHdr b) s = .next (s.giveBack (decHdrResult s.cfg b)) :=
  exec_of_enabled (.decHdr b) s hwf trivial

theorem decHdrResult_of_lt {c : Config} {s : List Byte} (h : s.length < headerSize c) :
    decHdrResult c s = .insufficientData := by
  rw [decHdrResult, decodeHeader_of_lt h]

theorem decHdrResult_of_le {c : Config} {s : List Byte} (h : headerSize c ≤ s.length) :
    decHdrResult c s = .header (headerAt c s) (headerSize c) := by
  rw [decHdrResult, decodeHeader_of_le h]

/-- Bytes behind the first `H` never influence the header (40_header_codec.md R71). -/
theorem headerAt_append {c : Config} {s : List Byte} (h : headerSize c ≤ s.length) (x : List Byte) :
    headerAt c (s ++ x) = headerAt c s := by
  rw [← headerAt_take, List.take_append_of_le_length h, headerAt_take]

/-- Settles O6: DEC_HDR hands back `decHdrResult`, which looks at the first `H` bytes only. -/
theorem decHdrReadsFirstBytes : Obligations.DecHdrReadsFirstBytes := by
  intro s b hwf
  refine ⟨fun hlt => ?_, fun hle => ?_, fun x hle => ?_⟩
  · rw [exec_decHdr hwf, decHdrResult_of_lt hlt]
    rfl
  · rw [exec_decHdr hwf, decHdrResult_of_le hle]
    rfl
  · have hle' : headerSize s.cfg ≤ (b ++ x).length := by rw [List.length_append]; exact Nat.le_add_right_of_le hle
    rw [exec_decHdr hwf, exec_decHdr hwf, decHdrResult_of_le hle, decHdrResult_of_le hle', headerAt_append hle]

/-- Settles O7: ENC_REQ is enabled on operands of their widths, and `markedHeader` is the header it encodes. -/
theorem encReqSuppliesMarker : Obligations.EncReqSuppliesMarker := by
  intro s t st n hwf hfit
  exact exec_of_enabled (.encReq t st n) s hwf hfit

theorem lengthFits_iff (c : Config) (n : Nat) : lengthFits c n = true ↔ n < 256 ^ c.lb := decide_eq_true_iff

/-- With well-typed tag and status, ENC_REQ_TEXT is refused exactly where the payload is too long for the length field
(40_header_codec.md R75). -/
theorem encReqPayload_refused_iff {s : State} {t st : Nat} (hwf : s.cfg.wf = true) (ht : tagFits s.cfg t = true)
    (hst : statusFits s.cfg st = true) (p : List Byte) :
    encReqPayload t st p s = .refused .textTooLong ↔ 256 ^ s.cfg.lb ≤ p.length := by
  rw [← Nat.not_lt, ← lengthFits_iff]
  unfold encReqPayload
  split
  case isTrue hlen => simp [s.typed_of _ _ _ hwf, ht, hst, hlen]
  case isFalse hlen => exact iff_of_true rfl hlen

/-- Settles O8: ENC_REQ_TEXT is enabled where the payload's byte count fits, and refused exactly where it does not. -/
theorem encReqTextCountsPayload : Obligations.EncReqTextCountsPayload := by
  refine ⟨fun s t st x hwf hfit => ?_, fun s t st p hwf ht hst => ?_, fun _ _ _ _ => rfl⟩
  · exact exec_of_enabled (.encReqText t st x) s hwf hfit
  · exact encReqPayload_refused_iff hwf ht hst p

end Sys2Proof.Machine
end

section
/-! The proofs about the reassembler (41_reassembler.md): the one row that is enabled, what the measure and the frames
to come are after it, and the drain as a run of transitions, which ends and keeps whatever each of them keeps. -/

namespace Sys2Proof.Machine

/-! ### The head of the buffer -/

/-- RSM reads the header off the first `H` bytes, so off the buffer (40_header_codec.md R71). -/
theorem State.headHeader_eq (s : State) : s.headHeader = headerAt s.cfg s.buf := headerAt_take s.cfg s.buf

theorem State.two_le_of_headerSize_le {s : State} (h : s.headerSize ≤ s.buf.length) : 2 ≤ s.buf.length :=
  (two_le_headerSize s.cfg).trans h

theorem State.two_le_of_atMarker {s : State} (h : s.atMarker = true) : 2 ≤ s.buf.length := by
  obtain ⟨hlen, -⟩ := (markerMatches_iff_getElem? s.cfg s.buf).1 h
  exact hlen

theorem Memory.readByte_eq_byteAt {m : Memory} {i : Nat} (h : i < m.length) : m.readByte i = some (byteAt m i) := by
  simp [Memory.readByte, byteAt, h]

theorem Memory.byteAt_of_readByte {m : Memory} {i : Nat} {b : Byte} (h : m.readByte i = some b) : byteAt m i = b := by
  rw [Memory.readByte] at h
  simp [byteAt, h]

theorem markerMatches_cons_cons (c : Config) (b0 b1 : Byte) (s : List Byte) :
    markerMatches c (b0 :: b1 :: s) = decide (b0 = markerByte0 c ∧ b1 = markerByte1 c) := rfl

/-- A header that begins with the marker bytes has the marker for its first field (30_encoding.md R54). -/
theorem headerAt_marker {c : Config} {s : List Byte} (h : markerMatches c s = true) :
    (headerAt c s).marker = c.marker := by
  obtain ⟨-, -, hvalue⟩ := markerMatchIsFirstTwoBytes c s
  obtain ⟨-, hmarker⟩ := hvalue.1 h
  simp only [headerAt, slice, List.drop_zero, hmarker, BitVec.ofNat_toNat, BitVec.setWidth_eq]

/-! ### The row that applies in each mode -/

theorem State.rsmRow_of_awaitHeader {s : State} (hm : s.mode = .awaitHeader) :
    s.rsmRow =
      if s.buf.length < s.headerSize then .hdrWait
      else if s.atMarker then
        if s.headHeader.typeTag = 0 then .hdrNull s.headHeader.status s.headHeader.length
        else .hdrAccept s.headHeader.typeTag s.headHeader.status s.headHeader.length
      else .hdrMismatch (byteAt s.buf 0) (byteAt s.buf 1) := by
  rw [s.headHeader_eq, State.rsmRow, hm]
  rfl

theorem State.rsmRow_of_resync {s : State} (hm : s.mode = .resync) :
    s.rsmRow =
      if s.atMarker then .resyncFound
      else if s.buf.length < 2 then .resyncEnd
      else .resyncSkip (byteAt s.buf 0) (byteAt s.buf 1) := by
  rw [State.rsmRow, hm]
  rfl

theorem State.rsmRow_of_awaitPayload {s : State} (hm : s.mode = .awaitPayload) :
    s.rsmRow = if s.cur.length ≤ s.buf.length then .dispatch else .payloadWait := by
  rw [State.rsmRow, hm]
  rfl

theorem State.isRsmRow_rsmRow (s : State) : isRsmRow s.rsmRow = true :=
  Machine.isRsmRow_rsmRow s.cfg s.mode s.cur.length s.buf

/-- The row that the step selects is enabled (41_reassembler.md R89). -/
theorem State.enabled_rsmRow (s : State) : s.enabled s.rsmRow := by
  cases hm : s.mode
  case awaitHeader =>
    rw [State.rsmRow_of_awaitHeader hm]
    split_ifs with hlt hmark htag
    · exact ⟨hm, hlt⟩
    · exact ⟨⟨hm, Nat.le_of_not_lt hlt, hmark⟩, htag, rfl, rfl⟩
    · exact ⟨⟨hm, Nat.le_of_not_lt hlt, hmark⟩, htag, rfl, rfl, rfl⟩
    · have hlen : 2 ≤ s.buf.length := State.two_le_of_headerSize_le (Nat.le_of_not_lt hlt)
      exact ⟨hm, Nat.le_of_not_lt hlt, Bool.eq_false_of_not_eq_true hmark,
        Memory.readByte_eq_byteAt (by omega), Memory.readByte_eq_byteAt (by omega)⟩
  case resync =>
    rw [State.rsmRow_of_resync hm]
    split_ifs with hmark hlt
    · exact ⟨hm, hmark⟩
    · exact ⟨hm, hlt⟩
    · exact ⟨hm, Nat.le_of_not_lt hlt, Bool.eq_false_of_not_eq_true hmark,
        Memory.readByte_eq_byteAt (by omega), Memory.readByte_eq_byteAt (by omega)⟩
  case awaitPayload =>
    rw [State.rsmRow_of_awaitPayload hm]
    split_ifs with hle
    · exact ⟨hm, hle⟩
    · exact ⟨hm, Nat.lt_of_not_le hle⟩

/-- A reassembler row is enabled only where the step selects it, with just these operands (41_reassembler.md R89). -/
theorem State.eq_rsmRow_of_enabled {s : State} {i : Instr} (hrow : isRsmRow i = true) (hen : s.enabled i) :
    i = s.rsmRow := by
  cases i
  case hdrAccept =>
    obtain ⟨⟨hm, hlen, hmark⟩, htag, rfl, rfl, rfl⟩ := hen
    rw [State.rsmRow_of_awaitHeader hm, if_neg hlen.not_gt, if_pos hmark, if_neg htag]
  case hdrNull =>
    obtain ⟨⟨hm, hlen, hmark⟩, htag, rfl, rfl⟩ := hen
    rw [State.rsmRow_of_awaitHeader hm, if_neg hlen.not_gt, if_pos hmark, if_pos htag]
  case hdrMismatch =>
    obtain ⟨hm, hlen, hmark, h0, h1⟩ := hen
    rw [State.rsmRow_of_awaitHeader hm, if_neg hlen.not_gt, if_neg (ne_true_of_eq_false hmark),
      Memory.byteAt_of_readByte h0, Memory.byteAt_of_readByte h1]
  case resyncSkip =>
    obtain ⟨hm, hlen, hmark, h0, h1⟩ := hen
    rw [State.rsmRow_of_resync hm, if_neg (ne_true_of_eq_false hmark), if_neg hlen.not_gt,
      Memory.byteAt_of_readByte h0, Memory.byteAt_of_readByte h1]
  case resyncFound =>
    obtain ⟨hm, hmark⟩ := hen
    rw [State.rsmRow_of_resync hm, if_pos hmark]
  case resyncEnd =>
    obtain ⟨hm, hlt⟩ := hen
    rw [State.rsmRow_of_resync hm, if_neg fun hmark => hlt.not_ge (State.two_le_of_atMarker hmark), if_pos hlt]
  case dispatch =>
    obtain ⟨hm, hle⟩ := hen
    rw [State.rsmRow_of_awaitPayload hm, if_pos hle]
  case hdrWait =>
    obtain ⟨hm, hlt⟩ := hen
    rw [State.rsmRow_of_awaitHeader hm, if_pos hlt]
  case payloadWait =>
    obtain ⟨hm, hlt⟩ := hen
    rw [State.rsmRow_of_awaitPayload hm, if_neg hlt.not_ge]
  all_goals exact Bool.noConfusion hrow

/-- Two enabled reassembler rows are one row. -/
theorem State.not_enabled_of_ne {s : State} {w i : Instr} (hw : isRsmRow w = true) (hen : s.enabled w)
    (hi : isRsmRow i = true) (hne : i ≠ w) : ¬ s.enabled i := fun hi' =>
  hne ((State.eq_rsmRow_of_enabled hi hi').trans (State.eq_rsmRow_of_enabled hw hen).symm)

/-- RSM is quiescent exactly where the row that applies is one of the two waits (41_reassembler.md R89). -/
theorem State.quiescent_iff_rsmRow (s : State) :
    s.quiescent ↔ s.rsmRow = .hdrWait ∨ s.rsmRow = .payloadWait := by
  have hen := s.enabled_rsmRow
  refine ⟨fun hq => ?_, fun hrow => ?_⟩
  · exact hq.imp (fun h => (State.eq_rsmRow_of_enabled (i := .hdrWait) rfl h).symm)
      fun h => (State.eq_rsmRow_of_enabled (i := .payloadWait) rfl h).symm
  · exact hrow.imp (fun h => by rwa [h] at hen) fun h => by rwa [h] at hen

/-- With something to do and no call, the step runs the row that applies. -/
theorem step_of_not_quiescent {s : State} (hcall : s.call = none) (hq : ¬ s.quiescent) :
    step s = exec s.rsmRow s := by
  rw [step_of_no_call s hcall, s.nextRow_of_not_quiescent hcall hq]

/-- Settles O42: the row that the step selects is enabled, and any enabled row is this one. -/
theorem exactlyOneRowEnabled : Obligations.ExactlyOneRowEnabled := by
  intro s _
  refine ⟨⟨s.rsmRow, ⟨s.isRsmRow_rsmRow, s.enabled_rsmRow⟩, fun i ⟨hrow, hen⟩ => ?_⟩,
    ⟨s.isRsmRow_rsmRow, s.enabled_rsmRow⟩, s.quiescent_iff_rsmRow, step_of_not_quiescent, fun hm hq => ?_⟩
  · exact State.eq_rsmRow_of_enabled hrow hen
  · exact State.mode_ne_resync_of_quiescent hq hm

/-! ### The measure -/

theorem modeRank_le_two (m : Mode) : modeRank m ≤ 2 := by cases m <;> decide

theorem modeRank_lt_awaitPayload {m : Mode} (h : m ≠ .awaitPayload) : modeRank m < modeRank .awaitPayload := by
  cases m
  case awaitPayload => exact absurd rfl h
  all_goals decide

/-- A byte taken lowers the measure, whatever the modes are. -/
theorem State.drainMeasure_lt_of_length {s t : State} (h : t.buf.length < s.buf.length) :
    t.drainMeasure < s.drainMeasure := by
  have := modeRank_le_two t.mode
  unfold State.drainMeasure
  omega

/-- Without a byte added, a mode of lower rank lowers the measure. -/
theorem State.drainMeasure_lt_of_rank {s t : State} (h : t.buf.length ≤ s.buf.length)
    (hr : modeRank t.mode < modeRank s.mode) : t.drainMeasure < s.drainMeasure := by
  unfold State.drainMeasure
  omega

theorem State.drainMeasure_le (s : State) : s.drainMeasure ≤ 3 * s.buf.length + 2 :=
  Nat.add_le_add_left (modeRank_le_two s.mode) _

/-- Leaving RESYNC without a byte taken goes to AWAIT_HEADER (41_reassembler.md R84, R85). -/
theorem State.mode_leaveResync {s : State} (hm : s.mode = .resync) : s.leaveResync.mode = .awaitHeader := by
  obtain ⟨hempty, -⟩ := s.mode_eq_resync_iff.1 hm
  exact s.leaveResync.mode_eq_awaitHeader_iff.2 ⟨hempty, rfl⟩

@[simp] theorem State.mode_consume (s : State) (n : Nat) : (s.consume n).mode = s.mode := rfl

theorem State.mode_handOver_ne (s : State) (items : List Item) : (s.handOver items).mode ≠ .awaitPayload := fun hm =>
  (State.mode_eq_awaitPayload_iff _).1 hm rfl

/-- Every transition that is no wait lowers the measure (41_reassembler.md R90): the first four by a byte taken, the
others by the mode they go to. -/
theorem State.drainMeasure_effect_lt {s : State} {i : Instr} (hrow : isRsmRow i = true) (hen : s.enabled i)
    (hq : ¬ s.quiescent) : (s.effect i).drainMeasure < s.drainMeasure := by
  have taken {n : Nat} (hn : 1 ≤ n) (hlen : n ≤ s.buf.length) : (s.buf.drop n).length < s.buf.length := by
    rw [List.length_drop]
    omega
  have hH : 1 ≤ s.headerSize := one_le_two.trans (two_le_headerSize s.cfg)
  cases i
  case hdrAccept | hdrNull =>
    obtain ⟨⟨-, hlen, -⟩, -⟩ := hen
    exact State.drainMeasure_lt_of_length (taken hH hlen)
  case hdrMismatch =>
    obtain ⟨-, hlen, -⟩ := hen
    exact State.drainMeasure_lt_of_length (taken le_rfl (hH.trans hlen))
  case resyncSkip =>
    obtain ⟨-, hlen, -⟩ := hen
    exact State.drainMeasure_lt_of_length (taken le_rfl (one_le_two.trans hlen))
  case resyncFound | resyncEnd =>
    obtain ⟨hm, -⟩ := hen
    have hrank : modeRank s.leaveResync.mode < modeRank s.mode := by rw [State.mode_leaveResync hm, hm]; decide
    exact State.drainMeasure_lt_of_rank le_rfl hrank
  case dispatch =>
    obtain ⟨hm, -⟩ := hen
    refine State.drainMeasure_lt_of_rank (by simp [State.effect]) ?_
    rw [hm]
    exact modeRank_lt_awaitPayload (s.mode_handOver_ne _)
  case hdrWait => exact absurd (.inl hen) hq
  case payloadWait => exact absurd (.inr hen) hq
  all_goals exact Bool.noConfusion hrow

/-! ### The drain -/

/-- What one transition of the drain does (41_reassembler.md R89, R90). -/
theorem step_eq_effect {s : State} (hwf : s.cfg.wf = true) (hcall : s.call = none) (hq : ¬ s.quiescent) :
    step s = .next (s.effect s.rsmRow) := by
  rw [step_of_not_quiescent hcall hq]
  exact exec_of_enabled s.rsmRow s hwf s.enabled_rsmRow

theorem drainWithin_of_quiescent {s : State} (hq : s.quiescent) (n : Nat) : drainWithin n s = .next s := by
  cases n
  · rfl
  · exact if_pos hq

theorem drainWithin_succ {s t : State} (hq : ¬ s.quiescent) (ht : step s = .next t) (n : Nat) :
    drainWithin (n + 1) s = drainWithin n t := by
  rw [drainWithin, if_neg hq, ht]

theorem runSteps_succ {s t : State} (ht : step s = .next t) (n : Nat) : runSteps (n + 1) s = runSteps n t := by
  rw [runSteps, ht]

theorem runSteps_add {m : Nat} {s t : State} (h : runSteps m s = .next t) (n : Nat) :
    runSteps (m + n) s = runSteps n t := by
  induction m generalizing s with
  | zero => rw [Nat.zero_add, Host.Outcome.next.inj h]
  | succ m ih =>
    rw [runSteps] at h
    split at h
    next u hu => rw [Nat.add_right_comm, runSteps_succ hu, ih h]
    next => cases h
    next => cases h

/-- The drain from a state with no call ends quiescent, within as many transitions as the measure says, and there holds
whatever held at its start and every reassembler row keeps. -/
theorem exists_drain_of_kept {P : State → Prop}
    (hkeep : ∀ (u : State) (i : Instr), isRsmRow i = true → u.enabled i → P u → P (u.effect i))
    {n : Nat} {s : State} (hn : s.drainMeasure ≤ n) (hwf : s.cfg.wf = true) (hcall : s.call = none) (hP : P s) :
    ∃ k t, k ≤ n ∧ runSteps k s = .next t ∧ drainWithin n s = .next t ∧ t.quiescent ∧ P t := by
  induction n generalizing s with
  | zero =>
    have hq : s.quiescent := not_not.1 fun hq =>
      Nat.not_lt_zero _ ((State.drainMeasure_effect_lt s.isRsmRow_rsmRow s.enabled_rsmRow hq).trans_le hn)
    exact ⟨0, s, le_rfl, rfl, rfl, hq, hP⟩
  | succ n ih =>
    by_cases hq : s.quiescent
    · exact ⟨0, s, Nat.zero_le _, rfl, drainWithin_of_quiescent hq _, hq, hP⟩
    · have hstep := step_eq_effect hwf hcall hq
      have hlt := State.drainMeasure_effect_lt s.isRsmRow_rsmRow s.enabled_rsmRow hq
      have hcall' : (s.effect s.rsmRow).call = none := by rwa [s.effect_of_transition (.inl s.isRsmRow_rsmRow)]
      obtain ⟨k, t, hk, hrun, hdrain, ht⟩ := ih (Nat.le_of_lt_succ (hlt.trans_le hn))
        (by rwa [State.effect_cfg]) hcall' (hkeep s _ s.isRsmRow_rsmRow s.enabled_rsmRow hP)
      exact ⟨k + 1, t, Nat.succ_le_succ hk, (runSteps_succ hstep k).trans hrun,
        (drainWithin_succ hq hstep n).trans hdrain, ht⟩

/-- A reassembler row touches neither the parameters nor the queue nor the outside's call. -/
theorem State.effect_keeps_outside (s : State) {i : Instr} (hrow : isRsmRow i = true) :
    (s.effect i).cfg = s.cfg ∧ (s.effect i).inq = s.inq ∧ (s.effect i).call = s.call := by
  rw [s.effect_of_transition (.inl hrow)]
  exact ⟨rfl, rfl, rfl⟩

/-- `drain` ends quiescent with the queue untouched (41_reassembler.md R90). -/
theorem State.exists_drain (s : State) (hwf : s.cfg.wf = true) (hcall : s.call = none) :
    ∃ k t, k ≤ 3 * s.buf.length + 2 ∧ runSteps k s = .next t ∧ s.drain = .next t ∧ t.quiescent ∧
      t.inq = s.inq ∧ t.call = none := by
  refine exists_drain_of_kept (P := fun u => u.inq = s.inq ∧ u.call = none) (fun u i hrow _ ⟨hinq, hcall'⟩ => ?_)
    s.drainMeasure_le hwf hcall ⟨rfl, hcall⟩
  obtain ⟨-, hinq', hcall''⟩ := u.effect_keeps_outside hrow
  exact ⟨hinq'.trans hinq, hcall''.trans hcall'⟩

/-- Settles O53: the measure falls with every transition, so the drain, which is a run of them, ends. -/
theorem drainTerminates : Obligations.DrainTerminates := by
  refine ⟨fun s t hwf hcall hq ht => ?_, State.exists_drain⟩
  obtain rfl := Host.Outcome.next.inj ((step_eq_effect hwf hcall hq).symm.trans ht)
  exact State.drainMeasure_effect_lt s.isRsmRow_rsmRow s.enabled_rsmRow hq

/-! ### A delivery and its drain -/

/-- What taking a delivery does: the event removed, its chunk appended (41_reassembler.md R91). -/
theorem exec_deliver {s : State} {chunk : List Byte} {rest : List Event} (hwf : s.cfg.wf = true)
    (hinq : s.inq = .deliver chunk :: rest) (hq : s.quiescent) (hfits : s.eventFits (.deliver chunk) = true) :
    exec (.deliver chunk) s = .next (s.dequeue.append chunk) :=
  exec_of_enabled (.deliver chunk) s hwf ⟨by rw [hinq, List.head?_cons], hq, hfits⟩

theorem State.dequeue_eq {s : State} {e : Event} {rest : List Event} (hinq : s.inq = e :: rest) :
    s.dequeue = { s with inq := rest } := by
  rw [State.dequeue, hinq, List.tail_cons]

/-- At quiescence, with no call, the step takes the event at the head of the queue if it fits
(60_exceptions.md R138). -/
theorem step_takes_head {s : State} {e : Event} {rest : List Event} (hcall : s.call = none) (hq : s.quiescent)
    (hinq : s.inq = e :: rest) (hfits : s.eventFits e = true) : step s = exec (eventRow e) s := by
  rw [step_of_no_call s hcall, s.nextRow_of_quiescent hcall hq, State.quietRow, hinq]
  simp only [hfits, if_true]

theorem State.eventFits_deliver {s : State} {chunk : List Byte}
    (h : ∀ cap, s.cfg.bufCap = some cap → s.buf.length + chunk.length ≤ cap) :
    s.eventFits (.deliver chunk) = true := by
  unfold State.eventFits withinCapacity
  cases hcap : s.cfg.bufCap with
  | none => rfl
  | some cap => exact decide_eq_true (h cap hcap)

/-- Settles O29: the append is exec's, and what follows is the drain of the state it leaves. -/
theorem deliveryAppendsAndDrains : Obligations.DeliveryAppendsAndDrains := by
  intro s chunk rest hwf hinq hq hcap
  have hfits := State.eventFits_deliver hcap
  refine ⟨?_, fun hcall => ⟨step_takes_head hcall hq hinq hfits, ?_⟩⟩
  · rw [exec_deliver hwf hinq hq hfits, State.dequeue_eq hinq]
    rfl
  obtain ⟨-, t, -, -, hdrain, ht, hrest, -⟩ := State.exists_drain
    { s with inq := rest, buf := s.buf ++ chunk, arrived := s.arrived ++ chunk } hwf hcall
  refine ⟨t, hdrain, ht, hrest, fun hnil => ?_⟩
  subst hnil
  simp only [List.append_nil] at hdrain
  have hquiet : State.drain { s with inq := rest } = .next { s with inq := rest } :=
    drainWithin_of_quiescent (s := { s with inq := rest }) hq _
  exact Host.Outcome.next.inj (hdrain.symm.trans hquiet)

/-! ### The mode changes -/

/-- Settles O50: the guard says the mode a transition comes from, its effect on slot and flag the mode it goes to. -/
theorem modeChangesOfTheGraph : Obligations.ModeChangesOfTheGraph := by
  intro s t hinv
  refine ⟨fun a b n h => ?_, fun b n h => ?_, fun b0 b1 h => ?_, fun b0 b1 h => ?_, fun h => ?_, fun h => ?_,
    fun h => ?_, fun i hi h => ?_⟩ <;> obtain ⟨-, hen, rfl⟩ := (exec_eq_next_iff _ s t).1 h
  · obtain ⟨⟨hm, -⟩, htag, -⟩ := hen
    exact ⟨hm, (State.mode_eq_awaitPayload_iff _).2 htag⟩
  · obtain ⟨⟨hm, -⟩, -⟩ := hen
    exact ⟨hm, hm⟩
  · obtain ⟨hm, -⟩ := hen
    obtain ⟨hempty, -⟩ := s.mode_eq_awaitHeader_iff.1 hm
    exact ⟨hm, (State.mode_eq_resync_iff _).2 ⟨hempty, rfl⟩⟩
  · obtain ⟨hm, -⟩ := hen
    exact ⟨hm, hm⟩
  · obtain ⟨hm, -⟩ := hen
    exact ⟨hm, State.mode_leaveResync hm⟩
  · obtain ⟨hm, -⟩ := hen
    exact ⟨hm, State.mode_leaveResync hm⟩
  · obtain ⟨hm, -⟩ := hen
    exact ⟨hm, State.mode_of_cleared rfl (hinv (s.mode_eq_awaitPayload_iff.1 hm))⟩
  · obtain ⟨hcur, hflag, -⟩ := s.effect_cleared (i := i) (by tauto)
    exact State.mode_of_cleared hcur hflag

/-! ### The frames of a stream -/

theorem framesWithin_of_short {c : Config} {s : List Byte} (h : s.length < headerSize c) (n : Nat) :
    framesWithin c n s = [] := by
  cases n
  · rfl
  · exact if_pos h

theorem frames_of_short {c : Config} {s : List Byte} (h : s.length < headerSize c) : frames c s = [] :=
  framesWithin_of_short h s.length

/-- Any bound of at least the stream's length gives the same frames: every round takes a byte. -/
theorem framesWithin_eq (c : Config) {n m : Nat} {s : List Byte} (hn : s.length ≤ n) (hm : s.length ≤ m) :
    framesWithin c n s = framesWithin c m s := by
  have hH := two_le_headerSize c
  induction n generalizing m s with
  | zero => rw [framesWithin_of_short (by omega), framesWithin_of_short (by omega)]
  | succ n ih =>
    by_cases hlen : s.length < headerSize c
    · rw [framesWithin_of_short hlen, framesWithin_of_short hlen]
    · obtain ⟨m, rfl⟩ : ∃ k, m = k + 1 := ⟨m - 1, by omega⟩
      have rounds {k : Nat} (hk : 1 ≤ k) : framesWithin c n (s.drop k) = framesWithin c m (s.drop k) :=
        ih (by rw [List.length_drop]; omega) (by rw [List.length_drop]; omega)
      simp only [framesWithin, List.drop_drop]
      rw [rounds le_rfl, rounds (k := headerSize c) (by omega), rounds (k := headerSize c + _) (by omega)]

/-- One round of `frames(s)` over a whole candidate header (41_reassembler.md R94). -/
theorem frames_eq {c : Config} {s : List Byte} (h : headerSize c ≤ s.length) :
    frames c s =
      if markerMatches c s then
        if (headerAt c s).typeTag = 0 then frames c (s.drop (headerSize c))
        else if (s.drop (headerSize c)).length < (headerAt c s).length then []
        else (headerAt c s, (s.drop (headerSize c)).take (headerAt c s).length) ::
          frames c ((s.drop (headerSize c)).drop (headerAt c s).length)
      else frames c (s.drop 1) := by
  have hH := two_le_headerSize c
  obtain ⟨n, hn⟩ : ∃ n, s.length = n + 1 := ⟨s.length - 1, by omega⟩
  have round {k : Nat} (hk : 1 ≤ k) : framesWithin c n (s.drop k) = frames c (s.drop k) :=
    framesWithin_eq c (by rw [List.length_drop]; omega) le_rfl
  rw [frames, hn, framesWithin, if_neg h.not_gt]
  simp only [List.drop_drop]
  rw [round le_rfl, round (k := headerSize c) (by omega), round (k := headerSize c + _) (by omega)]

/-- A byte at which no marker begins carries no frame, in however short a stream. -/
theorem frames_drop_one {c : Config} {s : List Byte} (h : markerMatches c s = false) :
    frames c (s.drop 1) = frames c s := by
  by_cases hlen : s.length < headerSize c
  · rw [frames_of_short hlen, frames_of_short (by rw [List.length_drop]; omega)]
  · rw [frames_eq (s := s) (Nat.le_of_not_lt hlen), h]
    rfl

/-- A marker test of two buffered bytes is not changed by bytes that follow. -/
theorem markerMatches_append {c : Config} {s : List Byte} (h : 2 ≤ s.length) (x : List Byte) :
    markerMatches c (s ++ x) = markerMatches c s := by
  obtain ⟨b0, b1, s, rfl⟩ : ∃ b0 b1 u, s = b0 :: b1 :: u := by
    rcases s with _ | ⟨b0, _ | ⟨b1, s⟩⟩
    case cons.cons => exact ⟨b0, b1, s, rfl⟩
    all_goals simp at h
  rfl

/-! ### The frames still to come -/

theorem State.framesToCome_of_awaitPayload {s : State} (hm : s.mode = .awaitPayload) (future : List Byte) :
    s.framesToCome future =
      if (s.buf ++ future).length < s.cur.length then []
      else (s.pendingHeader, (s.buf ++ future).take s.cur.length) ::
        frames s.cfg ((s.buf ++ future).drop s.cur.length) :=
  if_pos hm

theorem State.framesToCome_of_ne {s : State} (hm : s.mode ≠ .awaitPayload) (future : List Byte) :
    s.framesToCome future = frames s.cfg (s.buf ++ future) :=
  if_neg hm

/-- Bytes delivered are bytes that were to follow. -/
theorem State.framesToCome_append (s : State) (chunk future : List Byte) :
    (s.append chunk).framesToCome future = s.framesToCome (chunk ++ future) := by
  unfold State.framesToCome
  rw [State.append_buf, List.append_assoc]
  rfl

/-- A quiescent state has no frame to come from the bytes it holds. -/
theorem State.framesToCome_nil {s : State} (hq : s.quiescent) : s.framesToCome [] = [] := by
  rcases hq with ⟨hm, hlt⟩ | ⟨hm, hlt⟩
  · rw [State.framesToCome_of_ne (by simp [hm]), List.append_nil]
    exact frames_of_short hlt
  · rw [State.framesToCome_of_awaitPayload hm, List.append_nil, if_pos hlt]

/-- Over a marked candidate header, what comes is read off its own header and the bytes behind it. -/
theorem State.framesToCome_of_markedCandidate {s : State} (h : s.markedCandidate) (future : List Byte) :
    s.framesToCome future =
      if s.headHeader.typeTag = 0 then frames s.cfg (s.buf.drop s.headerSize ++ future)
      else if (s.buf.drop s.headerSize ++ future).length < s.headHeader.length then []
      else (s.headHeader, (s.buf.drop s.headerSize ++ future).take s.headHeader.length) ::
        frames s.cfg ((s.buf.drop s.headerSize ++ future).drop s.headHeader.length) := by
  obtain ⟨hm, hlen, hmark⟩ := h
  have hmark' : markerMatches s.cfg (s.buf ++ future) = true :=
    (markerMatches_append (State.two_le_of_headerSize_le hlen) future).trans hmark
  rw [State.framesToCome_of_ne (by simp [hm]), frames_eq (hlen.trans (by simp)), if_pos hmark',
    headerAt_append hlen, ← s.headHeader_eq, ← List.drop_append_of_le_length hlen]
  rfl

/-- A header accepted: its frame is the pending one, and then the frames behind it come (41_reassembler.md R80). -/
theorem State.framesToCome_hdrAccept {s : State} {a b n : Nat} (hen : s.hdrAcceptGuard a b n) (future : List Byte) :
    ((s.consume s.headerSize).setSlot a b n).framesToCome future = s.framesToCome future := by
  obtain ⟨hcand, htag, rfl, rfl, rfl⟩ := hen
  have hrebuilt : markedHeader s.cfg s.headHeader.typeTag s.headHeader.status s.headHeader.length = s.headHeader := by
    obtain ⟨-, -, hmark⟩ := hcand
    rw [markedHeader, s.headHeader_eq, ← headerAt_marker hmark]
  rw [State.framesToCome_of_markedCandidate hcand, if_neg htag, ← hrebuilt]
  exact State.framesToCome_of_awaitPayload ((State.mode_eq_awaitPayload_iff _).2 htag) future

/-- A header with the reserved tag holds no frame (41_reassembler.md R81). -/
theorem State.framesToCome_hdrNull {s : State} {b n : Nat} (hen : s.hdrNullGuard b n) (future : List Byte) :
    (s.consume s.headerSize).framesToCome future = s.framesToCome future := by
  obtain ⟨hcand, htag, -⟩ := hen
  have hne : (s.consume s.headerSize).mode ≠ .awaitPayload := by
    obtain ⟨hm, -⟩ := hcand
    simp [hm]
  rw [State.framesToCome_of_markedCandidate hcand, if_pos htag]
  exact State.framesToCome_of_ne hne future

/-- A byte dropped at which no marker begins, and no slot filled before or after, loses no frame
(41_reassembler.md R82, R83). -/
theorem State.framesToCome_drop_one {s t : State} (hlen : 2 ≤ s.buf.length) (hmark : s.atMarker = false)
    (hs : s.mode ≠ .awaitPayload) (ht : t.mode ≠ .awaitPayload) (hcfg : t.cfg = s.cfg) (hbuf : t.buf = s.buf.drop 1)
    (future : List Byte) : t.framesToCome future = s.framesToCome future := by
  rw [State.framesToCome_of_ne hs, State.framesToCome_of_ne ht, hcfg, hbuf,
    ← List.drop_append_of_le_length (one_le_two.trans hlen)]
  exact frames_drop_one ((markerMatches_append hlen future).trans hmark)

theorem State.framesToCome_leaveResync {s : State} (hm : s.mode = .resync) (future : List Byte) :
    s.leaveResync.framesToCome future = s.framesToCome future := by
  rw [State.framesToCome_of_ne (s := s) (by simp [hm]),
    State.framesToCome_of_ne (by simp [State.mode_leaveResync hm])]
  rfl

/-- Where its payload is buffered, the pending frame is the first to come, before those that come once it is handed
over. -/
theorem State.framesToCome_of_dispatchGuard {s : State} (hen : s.dispatchGuard) (items : List Item)
    (future : List Byte) :
    s.framesToCome future = (s.pendingHeader, s.pendingPayload) :: (s.handOver items).framesToCome future := by
  obtain ⟨hm, hle⟩ := hen
  have hlen : ¬ (s.buf ++ future).length < s.cur.length := (hle.trans (by simp)).not_gt
  rw [State.framesToCome_of_awaitPayload hm, if_neg hlen, State.framesToCome_of_ne (s.mode_handOver_ne items),
    List.take_append_of_le_length hle, List.drop_append_of_le_length hle]
  rfl

/-! ### Chunking independence -/

/-- The output trace of a run in which just the bytes `future` follow those buffered: what has been emitted, and what
the frames still to come put behind it (41_reassembler.md R94). -/
def State.traceWith (s : State) (future : List Byte) : List Item :=
  s.out ++ (s.framesToCome future).flatMap (itemsOfFrame s.cfg)

theorem State.traceWith_congr {s t : State} {future : List Byte} (hcfg : t.cfg = s.cfg) (hout : t.out = s.out)
    (hcome : t.framesToCome future = s.framesToCome future) : t.traceWith future = s.traceWith future := by
  rw [State.traceWith, State.traceWith, hcfg, hout, hcome]

/-- No transition and no wait changes that trace (41_reassembler.md R94): DISPATCH moves the first frame to come to the
frames emitted, and the others keep both. -/
theorem State.traceWith_effect {s : State} {i : Instr} (hrow : isRsmRow i = true) (hen : s.enabled i)
    (future : List Byte) : (s.effect i).traceWith future = s.traceWith future := by
  cases i
  case hdrAccept => exact State.traceWith_congr rfl rfl (State.framesToCome_hdrAccept hen future)
  case hdrNull => exact State.traceWith_congr rfl rfl (State.framesToCome_hdrNull hen future)
  case hdrMismatch =>
    obtain ⟨hm, hlen, hmark, -⟩ := hen
    have hne : s.mode ≠ .awaitPayload := by simp [hm]
    have hne' : s.enterResync.mode ≠ .awaitPayload := by
      rwa [ne_eq, State.mode_eq_awaitPayload_iff] at hne ⊢
    exact State.traceWith_congr rfl rfl
      (State.framesToCome_drop_one (State.two_le_of_headerSize_le hlen) hmark hne hne' rfl rfl future)
  case resyncSkip =>
    obtain ⟨hm, hlen, hmark, -⟩ := hen
    have hne : s.mode ≠ .awaitPayload := by simp [hm]
    exact State.traceWith_congr rfl rfl
      (State.framesToCome_drop_one (t := s.consume 1) hlen hmark hne hne rfl rfl future)
  case resyncFound | resyncEnd =>
    obtain ⟨hm, -⟩ := hen
    exact State.traceWith_congr rfl rfl (State.framesToCome_leaveResync hm future)
  case dispatch =>
    rw [State.traceWith, State.traceWith,
      State.framesToCome_of_dispatchGuard hen (dsp s.cfg s.pendingHeader s.pendingPayload), List.flatMap_cons,
      ← List.append_assoc]
    rfl
  case hdrWait | payloadWait => rfl
  all_goals exact Bool.noConfusion hrow

theorem framesOf_append (o o' : List Item) : framesOf (o ++ o') = framesOf o ++ framesOf o' := List.filterMap_append

/-- The dispatcher emits no frame (10_state.md R20). -/
theorem framesOf_dsp (c : Config) (h : Header) (p : List Byte) : framesOf (dsp c h p) = [] := by
  unfold dsp dspGetSize dspClearData
  split_ifs <;> rfl

/-- The frames in what a list of frames puts into the trace are these frames. -/
theorem framesOf_flatMap_itemsOfFrame (c : Config) (fs : List (Header × List Byte)) :
    framesOf (fs.flatMap (itemsOfFrame c)) = fs := by
  induction fs with
  | nil => rfl
  | cons f fs ih =>
    have hitems : framesOf (itemsOfFrame c f) = [f] := congrArg (List.cons f) (framesOf_dsp c f.1 f.2)
    rw [List.flatMap_cons, framesOf_append, hitems, ih, List.singleton_append]

theorem State.framesOf_traceWith (s : State) (future : List Byte) :
    framesOf (s.traceWith future) = framesOf s.out ++ s.framesToCome future := by
  rw [State.traceWith, framesOf_append, framesOf_flatMap_itemsOfFrame]

/-- Settles O54: both sides are the frames of `State.traceWith`, which a transition keeps. -/
theorem transitionKeepsFramesToCome : Obligations.TransitionKeepsFramesToCome := by
  intro s t future hwf hcall hq ht
  obtain rfl := Host.Outcome.next.inj ((step_eq_effect hwf hcall hq).symm.trans ht)
  rw [← State.framesOf_traceWith, ← State.framesOf_traceWith,
    State.traceWith_effect s.isRsmRow_rsmRow s.enabled_rsmRow]

/-- The drain keeps the trace of the whole run, whatever bytes follow. -/
theorem State.exists_drain_traceWith (s : State) (future : List Byte) (hwf : s.cfg.wf = true) (hcall : s.call = none) :
    ∃ k t, runSteps k s = .next t ∧ t.quiescent ∧ t.cfg = s.cfg ∧ t.inq = s.inq ∧ t.call = none ∧
      t.traceWith future = s.traceWith future := by
  obtain ⟨k, t, -, hrun, -, hq, ht⟩ := exists_drain_of_kept
    (P := fun u => u.cfg = s.cfg ∧ u.inq = s.inq ∧ u.call = none ∧ u.traceWith future = s.traceWith future)
    (fun u i hrow hen ⟨hcfg, hinq, hcall', htrace⟩ => by
      obtain ⟨hcfg', hinq', hcall''⟩ := u.effect_keeps_outside hrow
      exact ⟨hcfg'.trans hcfg, hinq'.trans hinq, hcall''.trans hcall',
        (State.traceWith_effect hrow hen future).trans htrace⟩)
    s.drainMeasure_le hwf hcall ⟨rfl, rfl, hcall, rfl⟩
  exact ⟨k, t, hrun, hq, ht⟩

/-- From a quiescent state with deliveries queued and an unbounded buffer the run ends, and its trace is the one the
concatenated chunks give: one delivery and its drain after another. -/
theorem exists_run_of_deliveries (chunks : List (List Byte)) {s : State} (hwf : s.cfg.wf = true)
    (hcap : s.cfg.bufCap = none) (hcall : s.call = none) (hq : s.quiescent)
    (hinq : s.inq = chunks.map Event.deliver) :
    ∃ k t, runSteps k s = .next t ∧ t.final ∧ t.out = s.traceWith chunks.flatten := by
  induction chunks generalizing s with
  | nil =>
    have hlive : ¬ s.deadlocked := fun ⟨_, hfull⟩ => by simp [withinCapacity, hcap] at hfull
    refine ⟨0, s, rfl, ⟨hcall, hinq, hq, hlive⟩, ?_⟩
    simp [State.traceWith, State.framesToCome_nil hq]
  | cons chunk chunks ih =>
    have hfits : s.eventFits (.deliver chunk) = true := State.eventFits_deliver (by simp [hcap])
    have hstep : step s = .next (s.dequeue.append chunk) := by
      rw [step_takes_head hcall hq hinq hfits]
      exact exec_deliver hwf hinq hq hfits
    obtain ⟨k, u, hrun, hq', hcfg, hinq', hcall', htrace⟩ :=
      (s.dequeue.append chunk).exists_drain_traceWith chunks.flatten hwf hcall
    have hqueue : u.inq = chunks.map Event.deliver := by
      rw [hinq', State.append_inq, State.dequeue_inq, hinq]
      rfl
    obtain ⟨l, t, hrun', hfinal, hout⟩ := ih (hcfg ▸ hwf) (hcfg ▸ hcap) hcall' hq' hqueue
    refine ⟨k + l + 1, t, ?_, hfinal, ?_⟩
    · rw [runSteps_succ hstep, runSteps_add hrun, hrun']
    · calc t.out = u.traceWith chunks.flatten := hout
        _ = (s.dequeue.append chunk).traceWith chunks.flatten := htrace
        _ = s.traceWith (chunk ++ chunks.flatten) := by
          rw [State.traceWith, State.framesToCome_append]
          rfl

/-- Settles O55: a cleared state is quiescent, and the frames to come from it are those of the stream. -/
theorem chunkingIndependence : Obligations.ChunkingIndependence := by
  intro s chunks hwf hcap hcall hcur hflag hbuf hinq
  have hm : s.mode = .awaitHeader := State.mode_of_cleared hcur hflag
  have hq : s.quiescent := .inl ⟨hm, by rw [hbuf]; exact two_pos.trans_le (two_le_headerSize s.cfg)⟩
  have hcome : s.framesToCome chunks.flatten = frames s.cfg chunks.flatten := by
    rw [State.framesToCome_of_ne (by simp [hm]), hbuf, List.nil_append]
  obtain ⟨k, t, hrun, hfinal, hout⟩ := exists_run_of_deliveries chunks hwf hcap hcall hq hinq
  refine ⟨k, t, hrun, hfinal, ?_, ?_⟩
  · rw [hout, State.traceWith, hcome]
  · rw [hout, State.framesOf_traceWith, hcome]

/-! ### The transitions on written-out bytes -/

/-- Field assembly over a header's bytes written out: the marker bytes, the other fields' bytes, and what follows
(30_encoding.md R50, R51). -/
theorem headerAt_cons_cons {c : Config} {b0 b1 : Byte} {f rest : List Byte} (hf : f.length = c.tb + c.sb + c.lb) :
    (headerAt c (b0 :: b1 :: f ++ rest)).typeTag = valueOf c (f.take c.tb) ∧
    (headerAt c (b0 :: b1 :: f ++ rest)).status = valueOf c ((f.drop c.tb).take c.sb) ∧
    (headerAt c (b0 :: b1 :: f ++ rest)).length = valueOf c (f.drop (c.tb + c.sb)) := by
  have field {off n : Nat} (h : off + n ≤ f.length) :
      slice (b0 :: b1 :: f ++ rest) (2 + off) n = slice f off n := by
    rw [← slice_append_left rest h, Nat.add_comm 2]
    rfl
  have hlast : slice f (c.tb + c.sb) c.lb = f.drop (c.tb + c.sb) :=
    List.take_of_length_le (by rw [List.length_drop]; omega)
  simp only [headerAt, typeOffset, statusOffset, lengthOffset]
  rw [← hlast, ← field (by omega), Nat.add_assoc 2 c.tb c.sb, field (off := c.tb) (by omega)]
  exact ⟨congrArg (valueOf c) (field (off := 0) (by omega)), rfl, rfl⟩

/-- A buffer that begins with a header's bytes, the first two of them the marker's, is a marked candidate, and what its
header is and which bytes are behind it. -/
theorem State.markedCandidate_of_bytes {s : State} {b0 b1 : Byte} {f rest : List Byte} (hm : s.mode = .awaitHeader)
    (h0 : b0 = markerByte0 s.cfg) (h1 : b1 = markerByte1 s.cfg) (hbuf : s.buf = b0 :: b1 :: f ++ rest)
    (hf : f.length = s.cfg.tb + s.cfg.sb + s.cfg.lb) :
    s.markedCandidate ∧ s.headHeader.typeTag = valueOf s.cfg (f.take s.cfg.tb) ∧
    s.headHeader.status = valueOf s.cfg ((f.drop s.cfg.tb).take s.cfg.sb) ∧
    s.headHeader.length = valueOf s.cfg (f.drop (s.cfg.tb + s.cfg.sb)) ∧
    s.consume s.headerSize = { s with buf := rest } := by
  have hH : (b0 :: b1 :: f).length = s.headerSize := by
    simp only [List.length_cons, hf, State.headerSize, Machine.headerSize]
    omega
  obtain ⟨htag, hstatus, hlength⟩ := headerAt_cons_cons (b0 := b0) (b1 := b1) (rest := rest) hf
  rw [s.headHeader_eq, hbuf]
  refine ⟨⟨hm, ?_, ?_⟩, htag, hstatus, hlength, ?_⟩
  · rw [hbuf, ← hH, List.length_append]
    exact Nat.le_add_right _ _
  · rw [State.atMarker, hbuf]
    exact decide_eq_true ⟨h0, h1⟩
  · rw [State.consume, Memory.consume, hbuf, List.drop_left' hH]

/-- Settles O15, by the guard and the bytes behind the header. -/
theorem hdrAcceptFillsSlot : Obligations.HdrAcceptFillsSlot := by
  intro s b0 b1 f rest t st n hwf hm h0 h1 hbuf hf ht hst hn hne
  obtain ⟨hcand, htag, hstatus, hlength, hrest⟩ := State.markedCandidate_of_bytes hm h0 h1 hbuf hf
  rw [exec_of_enabled (.hdrAccept t st n) s hwf
    ⟨hcand, hne, htag.trans ht.symm, hstatus.trans hst.symm, hlength.trans hn.symm⟩, State.effect, hrest]
  rfl

/-- Settles O16: both rows have one guard and one effect. -/
theorem nullHeaderIsConsumed : Obligations.NullHeaderIsConsumed := by
  intro s b0 b1 f rest st n hwf hm h0 h1 hbuf hf ht hst hn
  obtain ⟨hcand, htag, hstatus, hlength, hrest⟩ := State.markedCandidate_of_bytes hm h0 h1 hbuf hf
  have hguard : s.hdrNullGuard st n := ⟨hcand, htag.trans ht, hstatus.trans hst.symm, hlength.trans hn.symm⟩
  rw [← hrest]
  exact ⟨exec_of_enabled (.hdrNull st n) s hwf hguard, exec_of_enabled (.nullHeader st n) s hwf hguard⟩

/-- Two bytes at the head that are not the marker's, as the guards of HDR_MISMATCH and RESYNC_SKIP say it. -/
theorem State.not_atMarker_of_bytes {s : State} {b0 b1 : Byte} {rest : List Byte} (hbuf : s.buf = b0 :: b1 :: rest)
    (hne : ¬ (b0 = markerByte0 s.cfg ∧ b1 = markerByte1 s.cfg)) :
    s.atMarker = false ∧ s.buf.readByte 0 = some b0 ∧ s.buf.readByte 1 = some b1 := by
  rw [State.atMarker, hbuf]
  exact ⟨decide_eq_false hne, rfl, rfl⟩

/-- Settles O17: RESYNC is entered with the first of the written-out bytes dropped. -/
theorem hdrMismatchDropsOneByte : Obligations.HdrMismatchDropsOneByte := by
  intro s b0 b1 rest hwf hm hbuf hlen hne
  rw [exec_of_enabled (.hdrMismatch b0 b1) s hwf ⟨hm, hlen, State.not_atMarker_of_bytes hbuf hne⟩, State.effect,
    State.enterResync, State.consume, hbuf]
  rfl

/-- Settles O18: the guard reads the two written-out bytes, the effect drops the first. -/
theorem resyncSkipDropsOneByte : Obligations.ResyncSkipDropsOneByte := by
  intro s b0 b1 rest hwf hm hbuf hne
  have hlen : 2 ≤ s.buf.length := by simp [hbuf]
  rw [exec_of_enabled (.resyncSkip b0 b1) s hwf ⟨hm, hlen, State.not_atMarker_of_bytes hbuf hne⟩, State.effect,
    State.consume, hbuf]
  rfl

/-- Settles O19: the written-out marker bytes are what the guard asks for. -/
theorem resyncFoundClearsFlag : Obligations.ResyncFoundClearsFlag := by
  intro s rest hwf hm hbuf
  have hmark : s.atMarker = true := by rw [State.atMarker, hbuf]; exact decide_eq_true ⟨rfl, rfl⟩
  exact exec_of_enabled .resyncFound s hwf ⟨hm, hmark⟩

/-- Settles O20: the hypotheses are the guard, and leaving RESYNC writes only the flag. -/
theorem resyncEndKeepsLastByte : Obligations.ResyncEndKeepsLastByte := by
  intro s hwf hm hlt
  exact exec_of_enabled .resyncEnd s hwf ⟨hm, hlt⟩

/-- Settles O21: the payload is the first `cur.length` bytes. -/
theorem dispatchHandsOverFrame : Obligations.DispatchHandsOverFrame := by
  intro s p rest hwf hm hbuf hp
  have hle : s.cur.length ≤ s.buf.length := by simp [hbuf, hp]
  have hpayload : s.pendingPayload = p := by rw [State.pendingPayload, hbuf, List.take_left' hp]
  have hrest : s.consume s.cur.length = { s with buf := rest } := by
    rw [State.consume, Memory.consume, hbuf, List.drop_left' hp]
  rw [exec_of_enabled .dispatch s hwf ⟨hm, hle⟩, State.effect, State.handOver, hrest, hpayload]
  rfl

/-! ### The waits -/

theorem State.quiescent_iff_of_awaitHeader {s : State} (hm : s.mode = .awaitHeader) :
    s.quiescent ↔ s.buf.length < s.headerSize := by
  simp [State.quiescent, State.hdrWaitGuard, State.payloadWaitGuard, hm]

theorem State.quiescent_iff_of_awaitPayload {s : State} (hm : s.mode = .awaitPayload) :
    s.quiescent ↔ s.buf.length < s.cur.length := by
  simp [State.quiescent, State.hdrWaitGuard, State.payloadWaitGuard, hm]

/-- Settles O22: an enabled wait shuts out every other row; a delivery keeps slot and flag, so the mode, and only the
occupancy decides; the clears leave an empty buffer. -/
theorem waitsChangeNothing : Obligations.WaitsChangeNothing := by
  intro s hwf
  refine ⟨fun hm hlt => ?_, fun hm hlt => ?_, fun i t hi h => ?_⟩
  · have hwait : s.enabled .hdrWait := ⟨hm, hlt⟩
    refine ⟨exec_of_enabled .hdrWait s hwf hwait, fun i => State.not_enabled_of_ne rfl hwait, fun c t h => ?_⟩
    obtain ⟨-, -, rfl⟩ := (exec_eq_next_iff _ s t).1 h
    rw [← List.length_append]
    exact State.quiescent_iff_of_awaitHeader (s := s.dequeue.append c) hm
  · have hwait : s.enabled .payloadWait := ⟨hm, hlt⟩
    refine ⟨exec_of_enabled .payloadWait s hwf hwait, fun i => State.not_enabled_of_ne rfl hwait, fun c t h => ?_⟩
    obtain ⟨-, -, rfl⟩ := (exec_eq_next_iff _ s t).1 h
    rw [← List.length_append]
    exact ⟨rfl, State.quiescent_iff_of_awaitPayload (s := s.dequeue.append c) hm⟩
  · obtain ⟨-, -, rfl⟩ := (exec_eq_next_iff i s t).1 h
    obtain ⟨hcur, hflag, hbuf⟩ := s.effect_cleared (i := i) (by tauto)
    refine ⟨⟨State.mode_of_cleared hcur hflag, ?_⟩, hbuf⟩
    rw [hbuf]
    exact two_pos.trans_le (two_le_headerSize _)

end Sys2Proof.Machine
end

section
/-! The proofs about the dispatcher (42_dispatcher.md): where a complete frame is pending, a frame row hands it over
with the items the dispatcher gives for its kind, and nothing else changes. -/

namespace Sys2Proof.Machine

/-! ### The tags -/

/-- The five tags are nonzero (00_scope.md R4). -/
theorem Config.tag_ne_zero {c : Config} (hwf : c.wf = true) {t : Nat} (ht : t ∈ c.tags) : t ≠ 0 := by
  simp only [Config.wf, Bool.and_eq_true] at hwf
  obtain ⟨⟨⟨-, hall⟩, -⟩, -⟩ := hwf
  obtain ⟨hne, -⟩ := of_decide_eq_true (List.all_eq_true.1 hall t ht)
  exact hne

theorem isUnknownTag_iff (c : Config) (t : Nat) : isUnknownTag c t = true ↔ t ≠ 0 ∧ t ∉ c.tags := by
  rw [isUnknownTag, Bool.and_eq_true, decide_eq_true_eq, decide_eq_true_eq]

theorem isLenMismatch_iff (c : Config) (t n : Nat) :
    isLenMismatch c t n = true ↔ t = c.tagGetSize ∧ n ≠ 4 ∨ t = c.tagClearData ∧ n ≠ 0 := by
  simp only [isLenMismatch, Bool.or_eq_true, Bool.and_eq_true, decide_eq_true_eq]

/-- The two kinds whose size the source fixes have tags of the five (42_dispatcher.md R106). -/
theorem mem_tags_of_isLenMismatch {c : Config} {t n : Nat} (h : isLenMismatch c t n = true) : t ∈ c.tags := by
  rcases (isLenMismatch_iff c t n).1 h with ⟨rfl, -⟩ | ⟨rfl, -⟩ <;> simp [Config.tags]

/-! ### The dispatcher's items -/

theorem dspGetSize_of_four (c : Config) (h : Header) {p : List Byte} (hp : p.length = 4) :
    dspGetSize c h p = [.evFreeSize h.status (BitVec.ofNat 32 (valueOf c p))] := if_pos hp

theorem dspGetSize_of_ne_four (c : Config) (h : Header) {p : List Byte} (hp : p.length ≠ 4) :
    dspGetSize c h p = dspLenMismatch h := if_neg hp

theorem dspClearData_of_empty (h : Header) {p : List Byte} (hp : p.length = 0) :
    dspClearData h p = [.evClearAck h.status] := if_pos hp

theorem dspClearData_of_nonempty (h : Header) {p : List Byte} (hp : p.length ≠ 0) :
    dspClearData h p = dspLenMismatch h := if_neg hp

/-- Nothing of a four-byte value is lost in 32 bits (42_dispatcher.md R101). -/
theorem toNat_valueOf_of_four (c : Config) {p : List Byte} (hp : p.length = 4) :
    (BitVec.ofNat 32 (valueOf c p)).toNat = valueOf c p := by
  have hlt : valueOf c p < 2 ^ 32 := by simpa [hp] using valueOf_lt c p
  rw [BitVec.toNat_ofNat, Nat.mod_eq_of_lt hlt]

/-! ### A complete frame -/

section

variable {s : State} {t st n : Nat} {p rest : List Byte}
  (hbuf : s.buf = p ++ rest) (hp : p.length = n) (hcur : s.cur = { typeTag := t, status := st, length := n })

include hbuf hp hcur

/-- A nonzero tag in the slot and the payload buffered are the guard of a frame row. -/
theorem State.frameGuard_of_bytes (ht : t ≠ 0) : s.frameGuard t st n := by
  refine ⟨⟨s.mode_eq_awaitPayload_iff.2 (by rwa [hcur]), ?_⟩, hcur⟩
  rw [hcur, hbuf, List.length_append, hp]
  exact Nat.le_add_right n _

/-- What a complete frame leaves behind it: the bytes behind the payload, an Empty slot, and the trace with the FRAME
item and the given items (41_reassembler.md R86). -/
theorem State.handOver_of_bytes (f : Header → List Byte → List Item) :
    s.handOver (f s.pendingHeader s.pendingPayload) = { s with
      buf := rest
      cur := { typeTag := 0, status := 0, length := 0 }
      out := s.out ++ .frame (markedHeader s.cfg t st n) p :: f (markedHeader s.cfg t st n) p } := by
  have hheader : s.pendingHeader = markedHeader s.cfg t st n := by rw [State.pendingHeader, hcur]
  have hpayload : s.pendingPayload = p := by rw [State.pendingPayload, hcur, hbuf, List.take_left' hp]
  have hrest : s.consume s.cur.length = { s with buf := rest } := by
    rw [State.consume, Memory.consume, hcur, hbuf, List.drop_left' hp]
  rw [State.handOver, hrest, hheader, hpayload]
  rfl

/-- A row that is enabled on a complete frame and hands it over with what `f` says of it completes. -/
theorem exec_of_frame {i : Instr} (f : Header → List Byte → List Item) (hwf : s.cfg.wf = true) (hen : s.enabled i)
    (heffect : s.effect i = s.handOver (f s.pendingHeader s.pendingPayload)) :
    exec i s = .next { s with
      buf := rest
      cur := { typeTag := 0, status := 0, length := 0 }
      out := s.out ++ .frame (markedHeader s.cfg t st n) p :: f (markedHeader s.cfg t st n) p } := by
  rw [exec_of_enabled i s hwf hen, heffect, State.handOver_of_bytes hbuf hp hcur]

end

/-! ### The frame rows -/

/-- Settles O23: each of the three kinds' items carries the payload as it is. -/
theorem openKindsPassRawBytes : Obligations.OpenKindsPassRawBytes := by
  refine ⟨fun st p => ⟨rfl, rfl, rfl⟩, Config.decText_encText, fun s st n p rest hwf hbuf hp => ?_⟩
  have enabled {t : Nat} (ht : t ∈ s.cfg.tags) (hcur : s.cur = { typeTag := t, status := st, length := n }) :
      s.frameGuard t st n := State.frameGuard_of_bytes hbuf hp hcur (Config.tag_ne_zero hwf ht)
  refine ⟨fun hcur => ?_, fun hcur => ?_, fun hcur => ?_⟩
  · exact exec_of_frame hbuf hp hcur dspGetTime hwf (enabled (by simp [Config.tags]) hcur) rfl
  · exact exec_of_frame hbuf hp hcur dspGetStat hwf (enabled (by simp [Config.tags]) hcur) rfl
  · exact exec_of_frame hbuf hp hcur dspSetData hwf (enabled (by simp [Config.tags]) hcur) rfl

/-- Settles O24: the dispatcher's two answers to GET_SIZE. -/
theorem getSizeDecodesFourBytes : Obligations.GetSizeDecodesFourBytes := by
  intro s st n p rest hwf hbuf hp hcur
  have htag : s.cfg.tagGetSize ≠ 0 := Config.tag_ne_zero hwf (by simp [Config.tags])
  have hexec := exec_of_frame (i := .getSize st n) hbuf hp hcur (dspGetSize s.cfg) hwf
    (State.frameGuard_of_bytes hbuf hp hcur htag) rfl
  refine ⟨fun hn => ⟨?_, toNat_valueOf_of_four s.cfg (hp.trans hn)⟩, fun hn => ?_⟩
  · rwa [dspGetSize_of_four _ _ (hp.trans hn)] at hexec
  · rwa [dspGetSize_of_ne_four _ _ (hp.trans_ne hn)] at hexec

/-- Settles O25: the dispatcher's two answers to CLEAR_DATA. -/
theorem clearDataAcknowledgesEmpty : Obligations.ClearDataAcknowledgesEmpty := by
  intro s st n p rest hwf hbuf hp hcur
  have htag : s.cfg.tagClearData ≠ 0 := Config.tag_ne_zero hwf (by simp [Config.tags])
  have hexec := exec_of_frame (i := .clearData st n) hbuf hp hcur dspClearData hwf
    (State.frameGuard_of_bytes hbuf hp hcur htag) rfl
  refine ⟨fun hn => ?_, fun hn => ?_⟩
  · rwa [dspClearData_of_empty _ (hp.trans hn)] at hexec
  · rwa [dspClearData_of_nonempty _ (hp.trans_ne hn)] at hexec

/-- Settles O26: behind the FRAME item there is nothing. -/
theorem unknownKindEmitsNoEvent : Obligations.UnknownKindEmitsNoEvent := by
  intro s t st n p rest hwf hbuf hp hcur ht htags
  exact exec_of_frame (i := .unknownKind t st n) hbuf hp hcur (fun _ _ => dspUnknown) hwf
    ⟨State.frameGuard_of_bytes hbuf hp hcur ht, (isUnknownTag_iff s.cfg t).2 ⟨ht, htags⟩⟩ rfl

/-- Settles O27: the two kinds of a fixed size have nonzero tags, so the row is enabled; it reports the header's tag and
length. -/
theorem lenMismatchReports : Obligations.LenMismatchReports := by
  intro s t st n p rest hwf hbuf hp hcur h
  have hmis : isLenMismatch s.cfg t n = true := (isLenMismatch_iff s.cfg t n).2 h
  have ht : t ≠ 0 := Config.tag_ne_zero hwf (mem_tags_of_isLenMismatch hmis)
  exact exec_of_frame (i := .lenMismatch t st n) hbuf hp hcur (fun h _ => dspLenMismatch h) hwf
    ⟨State.frameGuard_of_bytes hbuf hp hcur ht, hmis⟩ rfl

end Sys2Proof.Machine
end

section
/-! The proofs about the input events (60_exceptions.md): what taking the event at the head of the queue does, said once
for all five, and that nothing else takes an event off the queue. -/

namespace Sys2Proof.Machine

/-! ### Taking an event -/

/-- The rule of an input event, on the state it has been removed from the queue of (60_exceptions.md R125 to R128,
41_reassembler.md R91). -/
def State.perform (s : State) : Event → State
  | .deliver chunk => s.append chunk
  | .connected => s.clearConnection.emit [.evConnected]
  | .connError => s.emit [.evConnError]
  | .disconnected => s.clearConnection.emit [.evDisconnected]
  | .srcError => s.emit [.report .srcError]

/-- An event's operation takes it off the queue and performs its rule (60_exceptions.md R138). -/
theorem State.effect_eventRow (s : State) (e : Event) : s.effect (eventRow e) = s.dequeue.perform e := by
  cases e <;> rfl

/-- An event's operation is enabled exactly where the event can be taken. -/
theorem State.enabled_eventRow_iff (s : State) (e : Event) : s.enabled (eventRow e) ↔ s.takeGuard e := by
  cases e <;> exact Iff.rfl

/-- No event's rule touches what is queued behind it. -/
@[simp] theorem State.perform_inq (s : State) (e : Event) : (s.perform e).inq = s.inq := by cases e <;> rfl

/-- What taking the event at the head of the queue does. -/
theorem exec_eventRow {s : State} {e : Event} {rest : List Event} (hwf : s.cfg.wf = true) (hinq : s.inq = e :: rest)
    (hq : s.quiescent) (hfits : s.eventFits e = true) :
    exec (eventRow e) s = .next (State.perform { s with inq := rest } e) := by
  have htake : s.takeGuard e := ⟨by rw [hinq, List.head?_cons], hq, hfits⟩
  rw [exec_of_enabled _ s hwf ((s.enabled_eventRow_iff e).2 htake), s.effect_eventRow, State.dequeue_eq hinq]

/-- Settles O30, as the case CONNECTED of `exec_eventRow`. -/
theorem connectedClearsAndForwards : Obligations.ConnectedClearsAndForwards :=
  fun _ _ hwf hinq hq => exec_eventRow (e := .connected) hwf hinq hq rfl

/-- Settles O31, as the case DISCONNECTED of `exec_eventRow`. -/
theorem disconnectedClearsAndForwards : Obligations.DisconnectedClearsAndForwards :=
  fun _ _ hwf hinq hq => exec_eventRow (e := .disconnected) hwf hinq hq rfl

/-- Settles O32, as the case CONN_ERROR of `exec_eventRow`. -/
theorem connErrorOnlyForwards : Obligations.ConnErrorOnlyForwards :=
  fun _ _ hwf hinq hq => exec_eventRow (e := .connError) hwf hinq hq rfl

/-- Settles O33, as the case SRC_ERROR of `exec_eventRow`. -/
theorem srcErrorOnlyReports : Obligations.SrcErrorOnlyReports :=
  fun _ _ hwf hinq hq => exec_eventRow (e := .srcError) hwf hinq hq rfl

/-! ### Only taking an event changes the queue -/

/-- Without a call from outside, the step runs the reassembler's row or, at quiescence, takes the event at the head of
the queue (60_exceptions.md R138). -/
theorem State.nextRow_eq_rsmRow_or_eventRow {s : State} (hcall : s.call = none) :
    s.nextRow = s.rsmRow ∨
      s.quiescent ∧ ∃ e rest, s.inq = e :: rest ∧ s.eventFits e = true ∧ s.nextRow = eventRow e := by
  by_cases hq : s.quiescent
  · rw [s.nextRow_of_quiescent hcall hq, State.quietRow]
    split
    next => exact .inl rfl
    next e rest hinq =>
      split
      next hfits => exact .inr ⟨hq, e, rest, hinq, hfits, rfl⟩
      next => exact .inl rfl
  · exact .inl (s.nextRow_of_not_quiescent hcall hq)

/-- Settles O51: the reassembler's rows keep the queue, so the step takes the event at its head. -/
theorem eventsTakenOnlyAtQuiescence : Obligations.EventsTakenOnlyAtQuiescence := by
  intro s t hcall h hne
  rw [step_of_no_call s hcall] at h
  obtain ⟨-, -, rfl⟩ := (exec_eq_next_iff _ s t).1 h
  obtain hrow | ⟨hq, e, rest, hinq, hfits, hrow⟩ := State.nextRow_eq_rsmRow_or_eventRow hcall <;> rw [hrow] at h hne ⊢
  · obtain ⟨-, hkept, -⟩ := s.effect_keeps_outside s.isRsmRow_rsmRow
    exact absurd hkept hne
  · have hrest : (s.effect (eventRow e)).inq = rest := by
      rw [s.effect_eventRow, State.perform_inq, State.dequeue_inq, hinq, List.tail_cons]
    exact ⟨hq, e, by rw [hrest, hinq], hfits, h⟩

end Sys2Proof.Machine
end

section
/-! The proofs about reset and recovery (70_reset_and_hazards.md): RESET is enabled everywhere, and from garbage before
a valid frame RSM runs to the frame, hands it over and rests. -/

namespace Sys2Proof.Machine

/-- Settles O34: RESET has no guard beyond well-formed parameters, and its effect is the connection's clear with the
queue emptied. -/
theorem resetActsAtAnyTime : Obligations.ResetActsAtAnyTime :=
  fun s hwf => exec_of_enabled .reset s hwf trivial

/-! ### A valid header's bytes -/

theorem Header.valid_iff (c : Config) (h : Header) :
    h.valid c = true ↔ h.wellTyped c = true ∧ h.marker = c.marker ∧ h.typeTag ≠ 0 := by
  simp only [Header.valid, Bool.and_eq_true, decide_eq_true_eq, and_assoc]

/-- An encoded header with the right marker begins with the marker bytes, whatever follows it. -/
theorem markerMatches_encodeHeader_append {c : Config} {h : Header} (hmark : h.marker = c.marker) (x : List Byte) :
    markerMatches c (encodeHeader c h ++ x) = true := by
  refine (markerMatches_iff_take c _).2 ⟨?_, ?_⟩
  · rw [List.length_append, encodeHeader_length]
    exact Nat.le_add_right_of_le (two_le_headerSize c)
  · rw [encodeHeader, hmark, List.append_assoc, List.append_assoc, List.append_assoc,
      List.take_left' (bytesOf_length c 2 _)]

/-! ### The run over the buffered bytes -/

/-- With no call and no event queued, the step is the reassembler row that is enabled (41_reassembler.md R89). -/
theorem step_of_enabled {s : State} {i : Instr} (hwf : s.cfg.wf = true) (hcall : s.call = none) (hinq : s.inq = [])
    (hrow : isRsmRow i = true) (hen : s.enabled i) : step s = .next (s.effect i) := by
  have hnext : s.nextRow = i := by
    rw [State.eq_rsmRow_of_enabled hrow hen]
    by_cases hq : s.quiescent
    · rw [s.nextRow_of_quiescent hcall hq, State.quietRow, hinq]
    · exact s.nextRow_of_not_quiescent hcall hq
  rw [step_of_no_call s hcall, hnext, exec_of_enabled i s hwf hen]

/-- The two bytes that HDR_MISMATCH and RESYNC_SKIP compare, where they are buffered. -/
theorem Memory.readByte_zero_one {m : Memory} (h : 2 ≤ m.length) :
    m.readByte 0 = some (byteAt m 0) ∧ m.readByte 1 = some (byteAt m 1) :=
  ⟨Memory.readByte_eq_byteAt (two_pos.trans_le h), Memory.readByte_eq_byteAt (one_lt_two.trans_le h)⟩

/-- The marker begins at none of the first `garbage.length` bytes of `garbage ++ x` (70_reset_and_hazards.md R147). -/
def NoMarkerBefore (c : Config) (garbage x : List Byte) : Prop :=
  ∀ j < garbage.length, markerMatches c ((garbage ++ x).drop j) = false

theorem noMarkerBefore_cons {c : Config} {b : Byte} {garbage x : List Byte} :
    NoMarkerBefore c (b :: garbage) x ↔
      markerMatches c (b :: garbage ++ x) = false ∧ NoMarkerBefore c garbage x := by
  simp only [NoMarkerBefore, List.length_cons, Nat.forall_lt_succ_left, List.cons_append, List.drop_zero,
    List.drop_succ_cons]

section

variable {s : State} {garbage x : List Byte} (hwf : s.cfg.wf = true) (hcall : s.call = none) (hinq : s.inq = [])
  (hbuf : s.buf = garbage ++ x) (hno : NoMarkerBefore s.cfg garbage x)

include hwf hcall hinq hbuf hno

/-- In RESYNC the garbage is skipped byte by byte (41_reassembler.md R83). -/
theorem exists_run_of_resync (hm : s.mode = .resync) (hx : 2 ≤ x.length) :
    ∃ k, runSteps k s = .next { s with buf := x } := by
  induction garbage generalizing s with
  | nil => exact ⟨0, by rw [runSteps, ← List.nil_append x, ← hbuf]⟩
  | cons b garbage ih =>
    obtain ⟨hhead, hno'⟩ := noMarkerBefore_cons.1 hno
    have hlen : 2 ≤ s.buf.length := by rw [hbuf, List.length_append]; exact Nat.le_add_left_of_le hx
    have hen : s.enabled (.resyncSkip (byteAt s.buf 0) (byteAt s.buf 1)) :=
      ⟨hm, hlen, by rwa [State.atMarker, hbuf], Memory.readByte_zero_one hlen⟩
    have hstep : step s = .next (s.consume 1) := step_of_enabled hwf hcall hinq rfl hen
    have hrest : (s.consume 1).buf = garbage ++ x := by rw [State.consume_buf, hbuf]; rfl
    obtain ⟨k, hrun⟩ := ih (s := s.consume 1) hwf hcall hinq hrest hno' hm
    exact ⟨k + 1, (runSteps_succ hstep k).trans hrun⟩

/-- From AWAIT_HEADER with a marked candidate behind the garbage, the run comes to that candidate with nothing else
changed: the first byte goes by HDR_MISMATCH, the others in RESYNC, which the marker ends (41_reassembler.md R82 to
R84). -/
theorem exists_run_of_garbage (hcur : s.cur = Slot.empty) (hflag : s.resync = false)
    (hx : s.headerSize ≤ x.length) (hmark : markerMatches s.cfg x = true) :
    ∃ k, runSteps k s = .next { s with buf := x } := by
  cases garbage with
  | nil => exact ⟨0, by rw [runSteps, ← List.nil_append x, ← hbuf]⟩
  | cons b garbage =>
    obtain ⟨hhead, hno'⟩ := noMarkerBefore_cons.1 hno
    have hlen : s.headerSize ≤ s.buf.length := by rw [hbuf, List.length_append]; exact Nat.le_add_left_of_le hx
    have hen : s.enabled (.hdrMismatch (byteAt s.buf 0) (byteAt s.buf 1)) :=
      ⟨State.mode_of_cleared hcur hflag, hlen, by rwa [State.atMarker, hbuf],
        Memory.readByte_zero_one (State.two_le_of_headerSize_le hlen)⟩
    have henter : step s = .next s.enterResync := step_of_enabled hwf hcall hinq rfl hen
    have hm : s.enterResync.mode = .resync := (State.mode_eq_resync_iff _).2 ⟨by simp [hcur], rfl⟩
    have hrest : s.enterResync.buf = garbage ++ x := by rw [State.enterResync_buf, hbuf]; rfl
    obtain ⟨k, hskip⟩ := exists_run_of_resync (s := s.enterResync) hwf hcall hinq hrest hno' hm
      ((two_le_headerSize s.cfg).trans hx)
    have hleave := step_of_enabled (s := { s.enterResync with buf := x }) (i := .resyncFound) hwf hcall hinq rfl
      ⟨hm, hmark⟩
    refine ⟨k + 1 + 1, ?_⟩
    rw [runSteps_succ henter, runSteps_add hskip, runSteps_succ hleave, hflag]
    rfl

end

/-- Over a valid frame's bytes HDR_ACCEPT is enabled with the frame's own header, which stands before the payload. -/
theorem State.hdrAccept_of_frame {s : State} {h : Header} {p : List Byte} (hm : s.mode = .awaitHeader)
    (hvalid : h.valid s.cfg = true) (hbuf : s.buf = encodeHeader s.cfg h ++ p) :
    s.hdrAcceptGuard h.typeTag h.status h.length ∧ s.consume s.headerSize = { s with buf := p } := by
  obtain ⟨htyped, hmark, htag⟩ := (Header.valid_iff s.cfg h).1 hvalid
  have hH : (encodeHeader s.cfg h).length = s.headerSize := encodeHeader_length s.cfg h
  have hhead : s.headHeader = h := by
    rw [s.headHeader_eq, hbuf, headerAt_append hH.ge, headerAt_encodeHeader htyped]
  have hlen : s.headerSize ≤ s.buf.length := by
    rw [hbuf, List.length_append, hH]
    exact Nat.le_add_right _ _
  have hbegin : s.atMarker = true := by
    rw [State.atMarker, hbuf]
    exact markerMatches_encodeHeader_append hmark p
  refine ⟨⟨⟨hm, hlen, hbegin⟩, htag, by simp [hhead]⟩, ?_⟩
  rw [State.consume, Memory.consume, hbuf, List.drop_left' hH]

/-- From AWAIT_HEADER over just a valid frame's bytes, HDR_ACCEPT and DISPATCH hand it over whole
(41_reassembler.md R80, R86). -/
theorem runSteps_two_of_frame {s : State} {h : Header} {p : List Byte} (hwf : s.cfg.wf = true) (hcall : s.call = none)
    (hinq : s.inq = []) (hm : s.mode = .awaitHeader) (hvalid : h.valid s.cfg = true) (hp : p.length = h.length)
    (hbuf : s.buf = encodeHeader s.cfg h ++ p) :
    runSteps 2 s = .next { s with buf := [], cur := Slot.empty, out := s.out ++ itemsOfFrame s.cfg (h, p) } := by
  obtain ⟨-, hmark, htag⟩ := (Header.valid_iff s.cfg h).1 hvalid
  obtain ⟨haccept, hrest⟩ := State.hdrAccept_of_frame hm hvalid hbuf
  have hheader : markedHeader s.cfg h.typeTag h.status h.length = h := by rw [markedHeader, ← hmark]
  let u : State := State.setSlot { s with buf := p } h.typeTag h.status h.length
  have hfirst : step s = .next u := by
    rw [step_of_enabled (i := .hdrAccept h.typeTag h.status h.length) hwf hcall hinq rfl haccept, State.effect, hrest]
  have hbuf' : u.buf = p ++ [] := (List.append_nil p).symm
  obtain ⟨hdispatch, -⟩ := State.frameGuard_of_bytes (s := u) hbuf' hp rfl htag
  have hsecond := step_of_enabled (s := u) (i := .dispatch) hwf hcall hinq rfl hdispatch
  rw [State.effect, State.handOver_of_bytes hbuf' hp rfl (dsp u.cfg)] at hsecond
  rw [runSteps_succ hfirst, runSteps_succ hsecond, runSteps, State.setSlot_cfg, hheader]
  rfl

/-- A cleared state with nothing asked for and nothing queued is a run's end. -/
theorem State.final_of_cleared {s : State} (hcall : s.call = none) (hinq : s.inq = []) (hcur : s.cur = Slot.empty)
    (hflag : s.resync = false) (hbuf : s.buf = []) : s.final := by
  have hm : s.mode = .awaitHeader := State.mode_of_cleared hcur hflag
  refine ⟨hcall, hinq, .inl ⟨hm, ?_⟩, fun ⟨hpayload, _⟩ => ?_⟩
  · rw [hbuf]
    exact two_pos.trans_le (two_le_headerSize s.cfg)
  · rw [hm] at hpayload
    exact Mode.noConfusion hpayload

/-- Settles O56: the run over the garbage, then the two transitions of the frame behind it. -/
theorem resyncRecoversFrame : Obligations.ResyncRecoversFrame := by
  intro s garbage p h hwf hcall hinq hcur hflag hvalid hp hbuf hno
  obtain ⟨-, hmark, -⟩ := (Header.valid_iff s.cfg h).1 hvalid
  have hlen : s.headerSize ≤ (encodeHeader s.cfg h ++ p).length := by
    rw [List.length_append, encodeHeader_length]
    exact Nat.le_add_right _ _
  rw [hbuf] at hno
  obtain ⟨k, hskip⟩ := exists_run_of_garbage hwf hcall hinq hbuf hno hcur hflag hlen
    (markerMatches_encodeHeader_append hmark p)
  have hframe := runSteps_two_of_frame (s := { s with buf := encodeHeader s.cfg h ++ p }) hwf hcall hinq
    (State.mode_of_cleared hcur hflag) hvalid hp rfl
  exact ⟨k + 2, _, (runSteps_add hskip 2).trans hframe, State.final_of_cleared hcall hinq rfl hflag rfl, rfl, rfl⟩

end Sys2Proof.Machine
end

section
/-! The proofs about decoding (30_encoding.md R65): what the decoder reads in each view, said once as an inversion, so
that decoding undoes encoding, encoding undoes decoding where a word has one meaning, and what is read is
well-formed. -/

namespace Sys2Proof.Machine

/-- Settles O1: the two byte orders' inverse laws are those of `bytesOf` and `valueOf`. -/
theorem bytesAndValuesAreInverse : Obligations.BytesAndValuesAreInverse :=
  fun c => ⟨fun n v hv => ⟨bytesOf_length c n v, valueOf_bytesOf c hv⟩,
    fun s => ⟨valueOf_lt c s, bytesOf_valueOf c s⟩⟩

/-! ### Fields and tags in range -/

theorem fieldsFit_iff (c : Config) (t st n : Nat) :
    fieldsFit c t st n = true ↔ tagFits c t = true ∧ statusFits c st = true ∧ lengthFits c n = true := by
  simp only [fieldsFit, Bool.and_eq_true, and_assoc]

theorem tagFits_zero (c : Config) : tagFits c 0 = true := decide_eq_true (Nat.pow_pos (by decide))

/-- The five tags fit the tag field (00_scope.md R4). -/
theorem Config.tagFits_of_mem {c : Config} (hwf : c.wf = true) {t : Nat} (ht : t ∈ c.tags) : tagFits c t = true := by
  simp only [Config.wf, Bool.and_eq_true] at hwf
  obtain ⟨⟨⟨-, hall⟩, -⟩, -⟩ := hwf
  obtain ⟨-, hlt⟩ := of_decide_eq_true (List.all_eq_true.1 hall t ht)
  exact decide_eq_true hlt

/-- The five tags are pairwise distinct (00_scope.md R4). -/
theorem Config.tags_nodup {c : Config} (hwf : c.wf = true) : c.tags.Nodup := by
  simp only [Config.wf, Bool.and_eq_true] at hwf
  obtain ⟨⟨-, hnodup⟩, -⟩ := hwf
  exact of_decide_eq_true hnodup

theorem isNotMarker_iff (c : Config) (b0 b1 : Byte) :
    isNotMarker c b0 b1 = true ↔ ¬ (b0 = markerByte0 c ∧ b1 = markerByte1 c) := by
  simp only [isNotMarker, markerMatches_cons_cons, Bool.not_eq_true', decide_eq_false_iff_not]

/-! ### The row of a frame's header -/

/-- Every tag selects one row, and what is known of the tag and the length in each (30_encoding.md R55, R56, R58,
42_dispatcher.md R106). -/
theorem kindRow_cases {c : Config} {t st n : Nat} {P : Instr → Prop}
    (null : t = 0 → P (.nullHeader st n))
    (mismatch : isLenMismatch c t n = true → P (.lenMismatch t st n))
    (getTime : t = c.tagGetTime → P (.getTime st n))
    (getSize : t = c.tagGetSize → n = 4 → P (.getSize st n))
    (getStat : t = c.tagGetStat → P (.getStat st n))
    (setData : t = c.tagSetData → P (.setData st n))
    (clearData : t = c.tagClearData → n = 0 → P (.clearData st n))
    (unknown : isUnknownTag c t = true → P (.unknownKind t st n)) : P (kindRow c t st n) := by
  unfold kindRow
  split_ifs with h0 hlen htime hsize hstat hset hclear
  · exact null h0
  · exact mismatch hlen
  · exact getTime htime
  · exact getSize hsize (not_not.1 fun h4 => hlen ((isLenMismatch_iff c t n).2 (.inl ⟨hsize, h4⟩)))
  · exact getStat hstat
  · exact setData hset
  · exact clearData hclear (not_not.1 fun h => hlen ((isLenMismatch_iff c t n).2 (.inr ⟨hclear, h⟩)))
  · exact unknown ((isUnknownTag_iff c t).2 ⟨h0, by simp [Config.tags, *]⟩)

theorem kindRow_zero (c : Config) (st n : Nat) : kindRow c 0 st n = .nullHeader st n := rfl

theorem kindRow_of_isLenMismatch {c : Config} (hwf : c.wf = true) {t n : Nat} (h : isLenMismatch c t n = true)
    (st : Nat) : kindRow c t st n = .lenMismatch t st n := by
  rw [kindRow, if_neg (Config.tag_ne_zero hwf (mem_tags_of_isLenMismatch h)), if_pos h]

theorem kindRow_of_isUnknownTag {c : Config} {t : Nat} (h : isUnknownTag c t = true) (st n : Nat) :
    kindRow c t st n = .unknownKind t st n := by
  obtain ⟨h0, htags⟩ := (isUnknownTag_iff c t).1 h
  simp only [Config.tags, List.mem_cons, not_or] at htags
  simp [kindRow, isLenMismatch, h0, htags]

/-- The five kinds' own tags select their rows, at the lengths that fit (30_encoding.md R55). -/
theorem kindRow_of_tag {c : Config} (hwf : c.wf = true) (st n : Nat) :
    kindRow c c.tagGetTime st n = .getTime st n ∧ kindRow c c.tagGetSize st 4 = .getSize st 4 ∧
    kindRow c c.tagGetStat st n = .getStat st n ∧ kindRow c c.tagSetData st n = .setData st n ∧
    kindRow c c.tagClearData st 0 = .clearData st 0 := by
  have hzero : ∀ t ∈ c.tags, t ≠ 0 := fun t => Config.tag_ne_zero hwf
  have hne := Config.tags_nodup hwf
  simp only [Config.tags, List.mem_cons, forall_eq_or_imp, List.nodup_cons, not_or] at hzero hne
  simp [kindRow, isLenMismatch, hzero, hne, eq_comm]

/-! ### What the decoder reads -/

/-- A marked header is read exactly where `H` bytes are at hand that begin with the marker. -/
theorem decodeMarked_eq_ok_iff (c : Config) (s : List Byte) (h : Header) :
    decodeMarked c s = .ok h ↔ headerSize c ≤ s.length ∧ markerMatches c s = true ∧ headerAt c s = h := by
  unfold decodeMarked
  by_cases hlen : headerSize c ≤ s.length
  · rw [decodeHeader_of_le hlen]
    cases hmark : markerMatches c s <;> simp [hlen]
  · rw [decodeHeader_of_lt (Nat.lt_of_not_le hlen)]
    simp [hlen]

/-- Reading through a function of what is read. -/
theorem map_eq_ok_iff {ε α β : Type} (f : α → β) (x : Except ε α) (b : β) :
    x.map f = .ok b ↔ ∃ a, x = .ok a ∧ f a = b := by
  cases x <;> simp [Except.map]

theorem decode_frame_eq_ok_iff (c : Config) (s : List Byte) (i : Instr) :
    decode c .frame s = .ok i ↔ headerSize c ≤ s.length ∧ markerMatches c s = true ∧
      kindRow c (headerAt c s).typeTag (headerAt c s).status (headerAt c s).length = i := by
  simp only [decode, map_eq_ok_iff, decodeMarked_eq_ok_iff, and_assoc, exists_and_left, exists_eq_left']

theorem decode_encReq_eq_ok_iff (c : Config) (s : List Byte) (i : Instr) :
    decode c (.codec .encReq) s = .ok i ↔ headerSize c ≤ s.length ∧ markerMatches c s = true ∧
      .encReq (headerAt c s).typeTag (headerAt c s).status (headerAt c s).length = i := by
  simp only [decode, map_eq_ok_iff, decodeMarked_eq_ok_iff, and_assoc, exists_and_left, exists_eq_left']

theorem decode_encHdr_eq_ok_iff (c : Config) (s : List Byte) (i : Instr) :
    decode c (.codec .encHdr) s = .ok i ↔ headerSize c ≤ s.length ∧ .encHdr (headerAt c s) = i := by
  unfold decode
  by_cases hlen : headerSize c ≤ s.length
  · simp [decodeHeader_of_le hlen, hlen]
  · simp [decodeHeader_of_lt (Nat.lt_of_not_le hlen), hlen]

/-- The port codes of 70_reset_and_hazards.md R144 and their events. -/
theorem decode_port_eq_ok_iff (c : Config) (s : List Byte) (i : Instr) :
    decode c .port s = .ok i ↔ s = [0] ∧ i = .connected ∨ s = [1] ∧ i = .connError ∨
      s = [2] ∧ i = .disconnected ∨ s = [3] ∧ i = .srcError := by
  change decodePort s = .ok i ↔ _
  unfold decodePort
  split
  next k =>
    simp only [List.cons.injEq, and_true]
    split_ifs with h0 h1 h2 h3
    · simp [h0, eq_comm (a := i)]
    · simp [h1, eq_comm (a := i)]
    · simp [h2, eq_comm (a := i)]
    · simp [h3, eq_comm (a := i)]
    · simp only [h0, h1, h2, h3, false_and, or_self]
  next hne =>
    have hne' (k : Byte) : s ≠ [k] := hne k
    simp only [hne', false_and, or_self, reduceCtorEq]

theorem decode_resetPin_eq_ok_iff (c : Config) (s : List Byte) (i : Instr) :
    decode c .resetPin s = .ok i ↔ s = [1] ∧ i = .reset := by
  unfold decode
  split_ifs with h
  · simp only [h, Except.ok.injEq, true_and, eq_comm]
  · simp only [h, false_and]

/-! ### The reassembler's view -/

/-- A state in the given mode with the given length pending and the given bytes buffered: where the reassembler's view
of bytes is its row. -/
def State.viewed (c : Config) (mode : Mode) (pending : Nat) (buf : List Byte) : State :=
  { State.resetWith c with
    cur := { typeTag := if mode = .awaitPayload then 1 else 0, status := 0, length := pending }
    resync := decide (mode = .resync)
    buf := buf }

theorem State.viewed_mode (c : Config) (mode : Mode) (pending : Nat) (buf : List Byte) :
    (State.viewed c mode pending buf).mode = mode := by
  cases mode <;> rfl

theorem decode_rsm (c : Config) (mode : Mode) (pending : Nat) (buf : List Byte) :
    decode c (.rsm mode pending) buf = .ok (State.viewed c mode pending buf).rsmRow := by
  rw [State.rsmRow, State.viewed_mode]
  rfl

/-- A reassembler row is what its view reads where its guard holds. -/
theorem decode_rsm_of_enabled {c : Config} {mode : Mode} {pending : Nat} {buf : List Byte} {i : Instr}
    (hrow : isRsmRow i = true) (hen : (State.viewed c mode pending buf).enabled i) :
    decode c (.rsm mode pending) buf = .ok i := by
  rw [decode_rsm, ← State.eq_rsmRow_of_enabled hrow hen]

/-- Over an encoded header with the right marker there is a marked candidate, and it is that header. -/
theorem State.markedCandidate_of_encodeHeader {s : State} {h : Header} {x : List Byte} (hm : s.mode = .awaitHeader)
    (ht : h.wellTyped s.cfg = true) (hmark : h.marker = s.cfg.marker) (hbuf : s.buf = encodeHeader s.cfg h ++ x) :
    s.markedCandidate ∧ s.headHeader = h := by
  have hH : (encodeHeader s.cfg h).length = s.headerSize := encodeHeader_length s.cfg h
  refine ⟨⟨hm, ?_, ?_⟩, ?_⟩
  · rw [hbuf, List.length_append, hH]
    exact Nat.le_add_right _ _
  · rw [State.atMarker, hbuf]
    exact markerMatches_encodeHeader_append hmark x
  · rw [s.headHeader_eq, hbuf, headerAt_append hH.ge, headerAt_encodeHeader ht]

/-! ### Decoding undoes encoding -/

section

variable {c : Config} {t st n : Nat} (hfit : fieldsFit c t st n = true)

include hfit

theorem decodeMarked_markedBytes_append (x : List Byte) :
    decodeMarked c (markedBytes c t st n ++ x) = .ok (markedHeader c t st n) := by
  have hH : (markedBytes c t st n).length = headerSize c := encodeHeader_length c _
  refine (decodeMarked_eq_ok_iff c _ _).2 ⟨?_, markerMatches_encodeHeader_append rfl x, ?_⟩
  · rw [List.length_append, hH]
    exact Nat.le_add_right _ _
  · rw [headerAt_append hH.ge]
    exact headerAt_encodeHeader hfit

theorem decodeMarked_markedBytes : decodeMarked c (markedBytes c t st n) = .ok (markedHeader c t st n) := by
  simpa only [List.append_nil] using decodeMarked_markedBytes_append hfit []

theorem decode_frame_markedBytes {i : Instr} (hrow : kindRow c t st n = i) :
    decode c .frame (markedBytes c t st n) = .ok i := by
  rw [decode, decodeMarked_markedBytes hfit, ← hrow]
  rfl

theorem decode_rsm_markedBytes :
    decode c (.rsm .awaitHeader 0) (markedBytes c t st n)
      = .ok (if t = 0 then .hdrNull st n else .hdrAccept t st n) := by
  obtain ⟨hcand, hhead⟩ := State.markedCandidate_of_encodeHeader (h := markedHeader c t st n)
    (s := State.viewed c .awaitHeader 0 (markedBytes c t st n)) (State.viewed_mode _ _ _ _) hfit rfl
    (List.append_nil _).symm
  split_ifs with ht
  · exact decode_rsm_of_enabled rfl ⟨hcand, by rw [hhead]; exact ⟨ht, rfl, rfl⟩⟩
  · exact decode_rsm_of_enabled rfl ⟨hcand, ht, by rw [hhead]; exact ⟨rfl, rfl, rfl⟩⟩

end

/-- ENC_REQ_TEXT is read back by the inverse of the text's encoding (42_dispatcher.md R103). -/
theorem decodeReqText_markedBytes_append {c : Config} {t st : Nat} {x : List Byte}
    (hfit : fieldsFit c t st (Config.encText x).length = true) :
    decodeReqText c (markedBytes c t st (Config.encText x).length ++ Config.encText x)
      = .ok (.encReqText t st x) := by
  rw [decodeReqText, decodeMarked_markedBytes_append hfit]
  simp [List.drop_left' (Sys2Proof.Laws.EncodedLength.markedBytes_length c _ _ _), markedHeader]

/-- Settles O11: a frame row by the tag's row, a reassembler row by its guard over the encoded bytes, the others by
their views. -/
theorem decodeOfEncodeIsIdentity : Obligations.DecodeOfEncodeIsIdentity := by
  intro c i hwf hi
  have known {t st n : Nat} {i : Instr} (hrow : kindRow c t st n = i) (ht : t ∈ c.tags)
      (hfit : (statusFits c st && lengthFits c n) = true) : decode c .frame (markedBytes c t st n) = .ok i :=
    decode_frame_markedBytes
      ((fieldsFit_iff c t st n).2 ⟨Config.tagFits_of_mem hwf ht, Bool.and_eq_true_iff.1 hfit⟩) hrow
  have zero {st n : Nat} (hfit : (statusFits c st && lengthFits c n) = true) : fieldsFit c 0 st n = true :=
    (fieldsFit_iff c 0 st n).2 ⟨tagFits_zero c, Bool.and_eq_true_iff.1 hfit⟩
  cases i
  case getTime st n =>
    obtain ⟨hrow, -⟩ := kindRow_of_tag hwf st n
    exact known hrow (by simp [Config.tags]) hi
  case getSize st n =>
    obtain ⟨hfit, hn⟩ := Bool.and_eq_true_iff.1 hi
    obtain rfl := of_decide_eq_true hn
    obtain ⟨-, hrow, -⟩ := kindRow_of_tag hwf st 4
    exact known hrow (by simp [Config.tags]) hfit
  case getStat st n =>
    obtain ⟨-, -, hrow, -⟩ := kindRow_of_tag hwf st n
    exact known hrow (by simp [Config.tags]) hi
  case setData st n =>
    obtain ⟨-, -, -, hrow, -⟩ := kindRow_of_tag hwf st n
    exact known hrow (by simp [Config.tags]) hi
  case clearData st n =>
    obtain ⟨hfit, hn⟩ := Bool.and_eq_true_iff.1 hi
    obtain rfl := of_decide_eq_true hn
    obtain ⟨-, -, -, -, hrow⟩ := kindRow_of_tag hwf st 0
    exact known hrow (by simp [Config.tags]) hfit
  case unknownKind t st n =>
    obtain ⟨hfit, hunknown⟩ := Bool.and_eq_true_iff.1 hi
    exact decode_frame_markedBytes hfit (kindRow_of_isUnknownTag hunknown st n)
  case lenMismatch t st n =>
    obtain ⟨hfit, hmis⟩ := Bool.and_eq_true_iff.1 hi
    exact decode_frame_markedBytes hfit (kindRow_of_isLenMismatch hwf hmis st)
  case nullHeader st n => exact decode_frame_markedBytes (zero hi) (kindRow_zero c st n)
  case hdrAccept t st n =>
    obtain ⟨hfit, ht⟩ := Bool.and_eq_true_iff.1 hi
    exact (decode_rsm_markedBytes hfit).trans (congrArg _ (if_neg (of_decide_eq_true ht)))
  case hdrNull st n => exact decode_rsm_markedBytes (zero hi)
  case hdrMismatch b0 b1 =>
    have hlen : (encode c (.hdrMismatch b0 b1)).length = headerSize c := Laws.EncodedLength.hdrMismatch b0 b1 c
    exact decode_rsm_of_enabled rfl ⟨rfl, hlen.ge, State.not_atMarker_of_bytes rfl ((isNotMarker_iff c b0 b1).1 hi)⟩
  case resyncSkip b0 b1 =>
    exact decode_rsm_of_enabled rfl ⟨rfl, le_rfl, State.not_atMarker_of_bytes rfl ((isNotMarker_iff c b0 b1).1 hi)⟩
  case resyncFound => exact decode_rsm_of_enabled rfl ⟨rfl, decide_eq_true ⟨rfl, rfl⟩⟩
  case resyncEnd => exact decode_rsm_of_enabled rfl ⟨rfl, one_lt_two⟩
  case dispatch => exact decode_rsm_of_enabled rfl ⟨rfl, le_rfl⟩
  case hdrWait =>
    have hlen : (encode c .hdrWait).length = headerSize c - 1 := Laws.EncodedLength.hdrWait c
    exact decode_rsm_of_enabled rfl ⟨rfl, hlen.trans_lt (Nat.sub_one_lt_of_lt (two_le_headerSize c))⟩
  case payloadWait => exact decode_rsm_of_enabled rfl ⟨rfl, one_lt_two⟩
  case connected | connError | disconnected | srcError => exact (decode_port_eq_ok_iff c _ _).2 (by simp [encode])
  case deliver | reset | decHdr => rfl
  case encHdr h =>
    exact (decode_encHdr_eq_ok_iff c _ _).2 ⟨(encodeHeader_length c h).ge, congrArg _ (headerAt_encodeHeader hi)⟩
  case encReq t st n => exact congrArg (Except.map _) (decodeMarked_markedBytes hi)
  case encReqText => exact decodeReqText_markedBytes_append hi

/-! ### Encoding undoes decoding -/

/-- Whichever row a header selects, its bytes are the header's. -/
theorem encode_kindRow (c : Config) (t st n : Nat) : encode c (kindRow c t st n) = markedBytes c t st n := by
  apply kindRow_cases (P := fun i => encode c i = markedBytes c t st n)
  case mismatch | unknown => exact fun _ => rfl
  all_goals rintro rfl
  case getSize | clearData => exact fun _ => rfl
  all_goals rfl

theorem encodeHeader_headerAt_take {c : Config} {s : List Byte} (hlen : headerSize c ≤ s.length) :
    encodeHeader c (headerAt c s) = s.take (headerSize c) := by
  rw [← headerAt_take, encodeHeader_headerAt (List.length_take_of_le hlen)]

/-- The fields read behind the marker bytes, written behind the marker again. -/
theorem markedBytes_headerAt {c : Config} {s : List Byte} (hlen : headerSize c ≤ s.length)
    (hmark : markerMatches c s = true) :
    markedBytes c (headerAt c s).typeTag (headerAt c s).status (headerAt c s).length = s.take (headerSize c) := by
  rw [← encodeHeader_headerAt_take hlen, markedBytes, markedHeader, ← headerAt_marker hmark]

/-- Settles O12: what each view reads says which bytes there were. -/
theorem encodeOfDecodeIsTheWord : Obligations.EncodeOfDecodeIsTheWord := by
  intro c s i _
  refine ⟨fun h => ?_, fun h => ?_, fun h => ?_, fun h => ?_, fun h => ?_, fun h => ?_, fun h => ?_⟩
  · obtain ⟨hlen, hmark, rfl⟩ := (decode_frame_eq_ok_iff c s i).1 h
    rw [encode_kindRow, markedBytes_headerAt hlen hmark]
  · obtain ⟨hlen, rfl⟩ := (decode_encHdr_eq_ok_iff c s i).1 h
    exact encodeHeader_headerAt_take hlen
  · obtain ⟨hlen, hmark, rfl⟩ := (decode_encReq_eq_ok_iff c s i).1 h
    exact markedBytes_headerAt hlen hmark
  · cases h
    rfl
  · cases h
    rfl
  · rcases (decode_port_eq_ok_iff c s i).1 h with ⟨rfl, rfl⟩ | ⟨rfl, rfl⟩ | ⟨rfl, rfl⟩ | ⟨rfl, rfl⟩ <;> rfl
  · obtain ⟨rfl, rfl⟩ := (decode_resetPin_eq_ok_iff c s i).1 h
    rfl

/-! ### What is read is well-formed -/

theorem kindRow_wf {c : Config} {t st n : Nat} (hfit : fieldsFit c t st n = true) :
    (kindRow c t st n).wf c = true := by
  obtain ⟨-, hstatus, hlength⟩ := (fieldsFit_iff c t st n).1 hfit
  have hrest : (statusFits c st && lengthFits c n) = true := Bool.and_eq_true_iff.2 ⟨hstatus, hlength⟩
  apply kindRow_cases (P := fun i => i.wf c = true)
  case mismatch | unknown => exact fun h => Bool.and_eq_true_iff.2 ⟨hfit, h⟩
  case getSize | clearData => exact fun _ hn => Bool.and_eq_true_iff.2 ⟨hrest, decide_eq_true hn⟩
  all_goals exact fun _ => hrest

/-- Two bytes that are compared and are not the marker, with whatever follows them. -/
theorem State.isNotMarker_of_not_atMarker {s : State} {b0 b1 : Byte} (hmark : s.atMarker = false)
    (h0 : s.buf.readByte 0 = some b0) (h1 : s.buf.readByte 1 = some b1) : isNotMarker s.cfg b0 b1 = true := by
  refine (isNotMarker_iff s.cfg b0 b1).2 fun ⟨hb0, hb1⟩ => ?_
  have hlen : 1 < s.buf.length := (List.getElem?_eq_some_iff.1 h1).1
  have hmatch := (markerMatches_iff_getElem? s.cfg s.buf).2 ⟨hlen, hb0 ▸ h0, hb1 ▸ h1⟩
  exact Bool.noConfusion (hmark.symm.trans hmatch)

/-- The header at the head of the buffer has fields in range (40_header_codec.md R71). -/
theorem State.headHeader_wellTyped {s : State} (h : s.headerSize ≤ s.buf.length) :
    s.headHeader.wellTyped s.cfg = true := by
  rw [s.headHeader_eq]
  exact headerAt_wellTyped h

/-- The operands with which a reassembler row is enabled are well-formed. -/
theorem State.wf_of_enabled {s : State} {i : Instr} (hrow : isRsmRow i = true) (hen : s.enabled i) :
    i.wf s.cfg = true := by
  cases i
  case hdrAccept t st n =>
    obtain ⟨⟨-, hlen, -⟩, ht, rfl, rfl, rfl⟩ := hen
    exact Bool.and_eq_true_iff.2 ⟨State.headHeader_wellTyped hlen, decide_eq_true ht⟩
  case hdrNull st n =>
    obtain ⟨⟨-, hlen, -⟩, -, rfl, rfl⟩ := hen
    obtain ⟨-, hrest⟩ := (fieldsFit_iff _ _ _ _).1 (State.headHeader_wellTyped hlen)
    exact Bool.and_eq_true_iff.2 hrest
  case hdrMismatch =>
    obtain ⟨-, -, hmark, h0, h1⟩ := hen
    exact State.isNotMarker_of_not_atMarker hmark h0 h1
  case resyncSkip =>
    obtain ⟨-, -, hmark, h0, h1⟩ := hen
    exact State.isNotMarker_of_not_atMarker hmark h0 h1
  case resyncFound | resyncEnd | dispatch | hdrWait | payloadWait => rfl
  all_goals exact Bool.noConfusion hrow

/-- Settles O13: a header's fields are in range because they are read from their own bytes, and the reassembler's view
reads a row that is enabled. -/
theorem decodedOperationsAreWellFormed : Obligations.DecodedOperationsAreWellFormed := by
  intro c v s i _ hv h
  cases v
  case frame =>
    obtain ⟨hlen, -, rfl⟩ := (decode_frame_eq_ok_iff c s i).1 h
    exact kindRow_wf (headerAt_wellTyped hlen)
  case rsm mode pending =>
    rw [decode_rsm] at h
    cases h
    exact State.wf_of_enabled (State.isRsmRow_rsmRow _) (State.enabled_rsmRow _)
  case chunk => cases h; rfl
  case port =>
    rcases (decode_port_eq_ok_iff c s i).1 h with ⟨-, rfl⟩ | ⟨-, rfl⟩ | ⟨-, rfl⟩ | ⟨-, rfl⟩ <;> rfl
  case resetPin =>
    obtain ⟨-, rfl⟩ := (decode_resetPin_eq_ok_iff c s i).1 h
    rfl
  case codec op =>
    cases op
    case encHdr =>
      obtain ⟨hlen, rfl⟩ := (decode_encHdr_eq_ok_iff c s i).1 h
      exact headerAt_wellTyped hlen
    case decHdr => cases h; rfl
    case encReq =>
      obtain ⟨hlen, -, rfl⟩ := (decode_encReq_eq_ok_iff c s i).1 h
      exact headerAt_wellTyped hlen
    case encReqText => exact absurd rfl hv

/-- Settles O14: each word is a concrete input of the decoder, evaluated. -/
theorem writtenOutWordsDecode : Obligations.WrittenOutWordsDecode :=
  ⟨by decide, by decide, by decide, by decide, by decide, by decide, by decide, by decide, by decide, by decide⟩

end Sys2Proof.Machine
end

section
/-! The proofs about the frame rows as a family: each is DISPATCH at the pending header it names (42_dispatcher.md
R108), and what the items of an operation record is the condition that it raises (60_exceptions.md R129). -/

namespace Sys2Proof.Machine

/-! ### The dispatcher's cases -/

/-- Each of the five tags selects its own case: they are distinct (42_dispatcher.md R108). -/
theorem dsp_of_tag {c : Config} (hwf : c.wf = true) (h : Header) (p : List Byte) :
    (h.typeTag = c.tagGetTime → dsp c h p = dspGetTime h p) ∧
    (h.typeTag = c.tagGetSize → dsp c h p = dspGetSize c h p) ∧
    (h.typeTag = c.tagGetStat → dsp c h p = dspGetStat h p) ∧
    (h.typeTag = c.tagSetData → dsp c h p = dspSetData h p) ∧
    (h.typeTag = c.tagClearData → dsp c h p = dspClearData h p) := by
  have hne := Config.tags_nodup hwf
  simp only [Config.tags, List.nodup_cons, List.mem_cons, not_or] at hne
  refine ⟨fun ht => ?_, fun ht => ?_, fun ht => ?_, fun ht => ?_, fun ht => ?_⟩ <;> simp [dsp, ht, hne, eq_comm]

theorem dsp_of_isUnknownTag {c : Config} {h : Header} (ht : isUnknownTag c h.typeTag = true) (p : List Byte) :
    dsp c h p = dspUnknown := by
  obtain ⟨-, htags⟩ := (isUnknownTag_iff c h.typeTag).1 ht
  simp only [Config.tags, List.mem_cons, not_or] at htags
  simp [dsp, htags]

/-- A payload of the wrong length for its kind is reported (42_dispatcher.md R106). -/
theorem dsp_of_isLenMismatch {c : Config} (hwf : c.wf = true) {h : Header} {p : List Byte} (hp : p.length = h.length)
    (hmis : isLenMismatch c h.typeTag h.length = true) : dsp c h p = dspLenMismatch h := by
  obtain ⟨-, hsize, -, -, hclear⟩ := dsp_of_tag hwf h p
  obtain ⟨ht, hn⟩ | ⟨ht, hn⟩ := (isLenMismatch_iff c _ _).1 hmis
  · rw [hsize ht, dspGetSize_of_ne_four c h (hp.trans_ne hn)]
  · rw [hclear ht, dspClearData_of_nonempty h (hp.trans_ne hn)]

/-- DISPATCH hands on exactly the pending length (41_reassembler.md R86). -/
theorem State.pendingPayload_length {s : State} (h : s.dispatchGuard) : s.pendingPayload.length = s.cur.length :=
  List.length_take_of_le h.2

/-! ### A frame row is its DISPATCH -/

/-- A frame row does where it is enabled what DISPATCH does there. -/
theorem State.effect_of_dispatchedRow {s : State} {i : Instr} (hwf : s.cfg.wf = true)
    (hrow : isDispatchedRow i = true) (hen : s.enabled i) : s.effect i = s.effect .dispatch := by
  obtain ⟨htime, hsize, hstat, hset, hclear⟩ := dsp_of_tag hwf s.pendingHeader s.pendingPayload
  have tag {t st n : Nat} (h : s.frameGuard t st n) : s.pendingHeader.typeTag = t := congrArg Slot.typeTag h.2
  cases i
  case getTime => exact congrArg s.handOver (htime (tag hen)).symm
  case getSize => exact congrArg s.handOver (hsize (tag hen)).symm
  case getStat => exact congrArg s.handOver (hstat (tag hen)).symm
  case setData => exact congrArg s.handOver (hset (tag hen)).symm
  case clearData => exact congrArg s.handOver (hclear (tag hen)).symm
  case unknownKind =>
    obtain ⟨hguard, hunknown⟩ := hen
    rw [← tag hguard] at hunknown
    exact congrArg s.handOver (dsp_of_isUnknownTag hunknown _).symm
  case lenMismatch t st n =>
    obtain ⟨⟨hguard, hcur⟩, hmis⟩ := hen
    have hpending : isLenMismatch s.cfg s.pendingHeader.typeTag s.pendingHeader.length = true := by
      simpa only [State.pendingHeader, markedHeader, hcur] using hmis
    exact congrArg s.handOver (dsp_of_isLenMismatch hwf (State.pendingPayload_length hguard) hpending).symm
  all_goals exact Bool.noConfusion hrow

/-- Where DISPATCH is enabled, so is the frame row that the pending header selects, one of the seven dispatched rows:
an empty slot is not pending. -/
theorem State.enabled_kindRow {s : State} (h : s.dispatchGuard) :
    s.enabled (kindRow s.cfg s.cur.typeTag s.cur.status s.cur.length) ∧
    isDispatchedRow (kindRow s.cfg s.cur.typeTag s.cur.status s.cur.length) = true := by
  have frame {t : Nat} (ht : s.cur.typeTag = t) : s.frameGuard t s.cur.status s.cur.length := ⟨h, by rw [← ht]⟩
  apply kindRow_cases (P := fun i => s.enabled i ∧ isDispatchedRow i = true)
  case null => exact fun ht => absurd ht (s.mode_eq_awaitPayload_iff.1 h.1)
  case mismatch | unknown => exact fun hkind => ⟨⟨frame rfl, hkind⟩, rfl⟩
  case getSize | clearData => exact fun ht _ => ⟨frame ht, rfl⟩
  all_goals exact fun ht => ⟨frame ht, rfl⟩

theorem exec_dispatch_eq {s : State} (hwf : s.cfg.wf = true) (h : s.dispatchGuard) :
    exec .dispatch s = exec (kindRow s.cfg s.cur.typeTag s.cur.status s.cur.length) s := by
  obtain ⟨hen, hrow⟩ := State.enabled_kindRow h
  rw [exec_of_enabled .dispatch s hwf h, exec_of_enabled _ s hwf hen, State.effect_of_dispatchedRow hwf hrow hen]

/-- Settles O28: the selected row is enabled, and its effect is that of DISPATCH. -/
theorem dispatchRunsTheFrameRow : Obligations.DispatchRunsTheFrameRow :=
  ⟨fun _ hwf h => ⟨exec_dispatch_eq hwf h, (State.enabled_kindRow h).right⟩, fun c h p => (dsp_answer c h p).left⟩

/-! ### What the items record -/

/-- The condition an operation raises, if it appears outside: its code is 3 or more (60_exceptions.md R129). -/
def outsideCondition (c : Config) (i : Instr) : Option Condition :=
  (conditionRaised c i).filter fun k => decide (3 ≤ conditionCode k)

theorem conditions_dspGetSize (c : Config) (h : Header) (p : List Byte) (st : Nat) :
    (dspGetSize c h p).filterMap conditionOfItem = (outsideCondition c (.getSize st p.length)).toList := by
  simp only [dspGetSize, outsideCondition, conditionRaised]
  split_ifs <;> rfl

theorem conditions_dspClearData (c : Config) (h : Header) (p : List Byte) (st : Nat) :
    (dspClearData h p).filterMap conditionOfItem = (outsideCondition c (.clearData st p.length)).toList := by
  simp only [dspClearData, outsideCondition, conditionRaised]
  split_ifs <;> rfl

/-- The items of an enabled operation record the condition it raises, if it appears outside. A FRAME item records none,
so in a frame row it is the dispatcher's item that does. -/
theorem State.conditions_emitted {s : State} {i : Instr} (hi : i ≠ .dispatch) (hen : s.enabled i) :
    (s.emitted i).filterMap conditionOfItem = (outsideCondition s.cfg i).toList := by
  have payload {t st n : Nat} (h : s.frameGuard t st n) : s.pendingPayload.length = n :=
    (State.pendingPayload_length h.1).trans (congrArg Slot.length h.2)
  cases i
  case getSize st n => exact payload hen ▸ conditions_dspGetSize s.cfg s.pendingHeader s.pendingPayload st
  case clearData st n => exact payload hen ▸ conditions_dspClearData s.cfg s.pendingHeader s.pendingPayload st
  case dispatch => exact absurd rfl hi
  case decHdr b =>
    simp only [outsideCondition, conditionRaised]
    split_ifs <;> rfl
  all_goals rfl

/-- Settles O38: the items are those of `State.emitted`. -/
theorem conditionsRecordedOutside : Obligations.ConditionsRecordedOutside := by
  intro i s t hi h
  obtain ⟨-, hen, rfl⟩ := (exec_eq_next_iff i s t).1 h
  exact ⟨s.emitted i, s.effect_out i, State.conditions_emitted hi hen⟩

end Sys2Proof.Machine
end

section
/-! The proofs about the invariant (10_state.md R16): each shared operation keeps it, under what it needs of its
operand; so does every enabled operation, and so a step. -/

namespace Sys2Proof.Machine

/-! ### The empty slot and reset -/

/-- The Empty slot's zeros fit any widths. -/
theorem fieldsFit_zero (c : Config) : fieldsFit c 0 0 0 = true := by
  simp [fieldsFit, tagFits, statusFits, lengthFits, fieldRange]

/-- The ghost law says that the buffer is the end of what arrived (10_state.md R26). -/
theorem State.ghostLaw_iff (s : State) : s.GhostLaw ↔ s.buf <:+ s.arrived := List.suffix_iff_eq_drop.symm

/-- Settles O45: everything is empty. -/
theorem invariantHoldsAtReset : Obligations.InvariantHoldsAtReset := fun c hwf =>
  ⟨hwf, fun h => absurd rfl h, fun _ => ⟨rfl, rfl⟩, Memory.nil_wf c, fieldsFit_zero c, rfl, List.forall_mem_nil _⟩

/-! ### The items of a pending frame -/

section

variable {c : Config} {h : Header} {p : List Byte} (ht : h.wellTyped c = true) (hp : p.length = h.length)

include ht

theorem Header.statusFits_of_wellTyped : statusFits c h.status = true := by
  obtain ⟨-, hstatus, -⟩ := (fieldsFit_iff c _ _ _).1 ht
  exact hstatus

include hp

theorem dspGetSize_ok (htag : h.typeTag = c.tagGetSize) : ∀ x ∈ dspGetSize c h p, itemOk c x = true := by
  unfold dspGetSize
  split_ifs with hn
  · simpa [itemOk] using Header.statusFits_of_wellTyped ht
  · simp [dspLenMismatch, itemOk, isLenMismatch_iff, htag, ← hp, hn]

theorem dspClearData_ok (htag : h.typeTag = c.tagClearData) : ∀ x ∈ dspClearData h p, itemOk c x = true := by
  unfold dspClearData
  split_ifs with hn
  · simpa [itemOk] using Header.statusFits_of_wellTyped ht
  · simp [dspLenMismatch, itemOk, isLenMismatch_iff, htag, ← hp, hn]

/-- The dispatcher's item carries the frame's status, or reports a length that does not fit (42_dispatcher.md R106). -/
theorem dsp_ok : ∀ x ∈ dsp c h p, itemOk c x = true := by
  have hstatus := Header.statusFits_of_wellTyped ht
  unfold dsp
  split_ifs with htime hsize hstat hset hclear
  · simpa [dspGetTime, itemOk] using hstatus
  · exact dspGetSize_ok ht hp hsize
  · simpa [dspGetStat, itemOk] using hstatus
  · simpa [dspSetData, itemOk] using hstatus
  · exact dspClearData_ok ht hp hclear
  · simp [dspUnknown]

end

/-- The FRAME item of a pending frame is in order: a valid header with just its payload (10_state.md R20). -/
theorem State.frame_ok {s : State} (hfit : s.RegistersFit) (hguard : s.dispatchGuard) :
    itemOk s.cfg (.frame s.pendingHeader s.pendingPayload) = true := by
  have hvalid : s.pendingHeader.valid s.cfg = true :=
    (Header.valid_iff _ _).2 ⟨hfit, rfl, s.mode_eq_awaitPayload_iff.1 hguard.1⟩
  exact Bool.and_eq_true_iff.2 ⟨hvalid, decide_eq_true (State.pendingPayload_length hguard)⟩

/-! ### What the shared operations keep -/

section

variable {s : State} (h : s.Inv)

include h

theorem State.inv_consume (n : Nat) : (s.consume n).Inv := by
  obtain ⟨hwf, h1, h2, h3, hfit, hghost, hout⟩ := h
  have hsuffix : s.buf.drop n <:+ s.arrived := (List.drop_suffix n s.buf).trans (s.ghostLaw_iff.1 hghost)
  exact ⟨hwf, h1, h2, Memory.consume_wf s.cfg s.buf n h3, hfit, (s.consume n).ghostLaw_iff.2 hsuffix, hout⟩

theorem State.inv_append {chunk : List Byte} (hcap : s.eventFits (.deliver chunk) = true) : (s.append chunk).Inv := by
  obtain ⟨hwf, h1, h2, -, hfit, hghost, hout⟩ := h
  obtain ⟨consumed, hconsumed⟩ := s.ghostLaw_iff.1 hghost
  have hsuffix : s.buf ++ chunk <:+ s.arrived ++ chunk := ⟨consumed, by rw [← List.append_assoc, hconsumed]⟩
  exact ⟨hwf, h1, h2, Memory.append_wf s.cfg s.buf chunk hcap, hfit, (s.append chunk).ghostLaw_iff.2 hsuffix, hout⟩

theorem State.inv_emit {items : List Item} (hitems : ∀ x ∈ items, itemOk s.cfg x = true) : (s.emit items).Inv := by
  obtain ⟨hwf, h1, h2, h3, hfit, hghost, hout⟩ := h
  exact ⟨hwf, h1, h2, h3, hfit, hghost, List.forall_mem_append.2 ⟨hout, hitems⟩⟩

/-- The slot may be filled where the flag is down, with a nonzero tag and fields of their widths. -/
theorem State.inv_setSlot {t st n : Nat} (hr : s.resync = false) (ht : t ≠ 0)
    (hfields : fieldsFit s.cfg t st n = true) : (s.setSlot t st n).Inv := by
  obtain ⟨hwf, -, -, h3, -, hghost, hout⟩ := h
  exact ⟨hwf, fun _ => hr, fun h0 => absurd h0 ht, h3, hfields, hghost, hout⟩

theorem State.inv_clearSlot : s.clearSlot.Inv := by
  obtain ⟨hwf, -, -, h3, -, hghost, hout⟩ := h
  exact ⟨hwf, fun h0 => absurd rfl h0, fun _ => ⟨rfl, rfl⟩, h3, fieldsFit_zero s.cfg, hghost, hout⟩

theorem State.inv_clearConnection : s.clearConnection.Inv := by
  obtain ⟨hwf, -, -, -, -, -, hout⟩ := h
  exact ⟨hwf, fun h0 => absurd rfl h0, fun _ => ⟨rfl, rfl⟩, Memory.nil_wf s.cfg, fieldsFit_zero s.cfg, rfl, hout⟩

/-- RESYNC may be entered where the slot is Empty. -/
theorem State.inv_setResync (hempty : s.cur.typeTag = 0) : s.setResync.Inv := by
  obtain ⟨hwf, -, hrest⟩ := h
  exact ⟨hwf, fun h0 => absurd hempty h0, hrest⟩

theorem State.inv_leaveResync : s.leaveResync.Inv := by
  obtain ⟨hwf, -, hrest⟩ := h
  exact ⟨hwf, fun _ => rfl, hrest⟩

/-- A pending frame may be handed over with the dispatcher's items. -/
theorem State.inv_dispatch (hguard : s.dispatchGuard) : (s.effect .dispatch).Inv := by
  have ⟨_, _, _, _, hfit, _⟩ := h
  have hitems : ∀ x ∈ s.frameItems (dsp s.cfg s.pendingHeader s.pendingPayload), itemOk s.cfg x = true :=
    List.forall_mem_cons.2 ⟨State.frame_ok hfit hguard, dsp_ok hfit (State.pendingPayload_length hguard)⟩
  exact State.inv_clearSlot (State.inv_emit (State.inv_consume h s.cur.length) hitems)

end

/-! ### What every operation keeps -/

/-- Every enabled operation keeps the invariant. -/
theorem State.inv_effect {s : State} {i : Instr} (h : s.Inv) (hen : s.enabled i) : (s.effect i).Inv := by
  have ⟨hwf, _⟩ := h
  cases i
  case getTime | getSize | getStat | setData | clearData =>
    rw [State.effect_of_dispatchedRow hwf rfl hen]
    obtain ⟨hguard, -⟩ := hen
    exact State.inv_dispatch h hguard
  case unknownKind | lenMismatch =>
    rw [State.effect_of_dispatchedRow hwf rfl hen]
    obtain ⟨⟨hguard, -⟩, -⟩ := hen
    exact State.inv_dispatch h hguard
  case dispatch => exact State.inv_dispatch h hen
  case nullHeader | hdrNull | resyncSkip => exact State.inv_consume h _
  case hdrAccept t st n =>
    obtain ⟨hfields, ht⟩ := Bool.and_eq_true_iff.1 (State.wf_of_enabled (i := .hdrAccept t st n) rfl hen)
    obtain ⟨⟨hm, -⟩, -⟩ := hen
    obtain ⟨-, hflag⟩ := s.mode_eq_awaitHeader_iff.1 hm
    exact State.inv_setSlot (State.inv_consume h s.headerSize) hflag (of_decide_eq_true ht) hfields
  case hdrMismatch =>
    obtain ⟨hm, -⟩ := hen
    obtain ⟨hempty, -⟩ := s.mode_eq_awaitHeader_iff.1 hm
    exact State.inv_setResync (State.inv_consume h 1) hempty
  case resyncFound | resyncEnd => exact State.inv_leaveResync h
  case deliver chunk =>
    obtain ⟨-, -, hfits⟩ := hen
    exact State.inv_append (s := s.dequeue) h hfits
  case connected | disconnected =>
    exact State.inv_emit (State.inv_clearConnection (s := s.dequeue) h) (by simp [itemOk])
  case connError | srcError => exact State.inv_emit (s := s.dequeue) h (by simp [itemOk])
  case reset => exact State.inv_clearConnection (s := { s with inq := [] }) h
  case hdrWait | payloadWait | encHdr | decHdr | encReq | encReqText => exact h

/-- Settles O44: a step is an enabled operation on the state with its call taken off, of which the invariant does not
speak. -/
theorem stepKeepsInvariant : Obligations.StepKeepsInvariant := by
  intro s t h ht
  obtain ⟨-, hen, rfl⟩ := (exec_eq_next_iff _ _ t).1 ht
  exact State.inv_effect (s := { s with call := none }) h hen

end Sys2Proof.Machine
end

section
/-! The proofs about what the next step runs (41_reassembler.md R89, 60_exceptions.md R138): it is always an enabled
operation, it is a wait that changes nothing where there is nothing to do, and it is the operation of a word placed. -/

namespace Sys2Proof.Machine

/-! ### Where an operation completes -/

/-- What gives no next state is refused: there is no fault (41_reassembler.md R92). -/
theorem exists_refused {o : Host.Outcome State Fault Refusal} (h : ∀ t, o ≠ .next t) : ∃ r, o = .refused r := by
  cases o with
  | next t => exact absurd rfl (h t)
  | fault f => cases f
  | refused r => exact ⟨r, rfl⟩

/-- Settles O41, from the inversion of exec. -/
theorem operationsRunWhereEnabled : Obligations.OperationsRunWhereEnabled := by
  refine fun i s => ⟨fun hwf => ⟨⟨fun ⟨t, ht⟩ => ?_, fun hen => ⟨_, exec_of_enabled i s hwf hen⟩⟩, fun hen => ?_⟩,
    fun hwf => ?_⟩
  · obtain ⟨-, hen, -⟩ := (exec_eq_next_iff i s t).1 ht
    exact hen
  · refine exists_refused fun t ht => ?_
    obtain ⟨-, hen', -⟩ := (exec_eq_next_iff i s t).1 ht
    exact hen hen'
  · refine exists_refused fun t ht => ?_
    obtain ⟨hwf', -⟩ := (exec_eq_next_iff i s t).1 ht
    exact Bool.noConfusion (hwf.symm.trans hwf')

theorem State.nextRow_of_call {s : State} {k : Call} (h : s.call = some k) : s.nextRow = callRow k := by
  rw [State.nextRow, h]

/-- No codec function and no reset looks at what is asked for. -/
theorem State.enabled_callRow {s : State} {k : Call} (h : s.enabled (callRow k)) :
    State.enabled { s with call := none } (callRow k) := by
  cases k <;> exact h

/-- The step runs an operation that is enabled, if what is asked for from outside is. -/
theorem State.enabled_nextRow {s : State} (h : ∀ k, s.call = some k → s.enabled (callRow k)) :
    State.enabled { s with call := none } s.nextRow := by
  cases hcall : s.call with
  | some k =>
    rw [State.nextRow_of_call hcall]
    exact State.enabled_callRow (h k hcall)
  | none =>
    rw [s.call_none_eq hcall]
    obtain hrow | ⟨hq, e, rest, hinq, hfits, hrow⟩ := State.nextRow_eq_rsmRow_or_eventRow hcall <;> rw [hrow]
    · exact s.enabled_rsmRow
    · exact (s.enabled_eventRow_iff e).2 ⟨by rw [hinq, List.head?_cons], hq, hfits⟩

/-- Settles O43: an enabled operation completes. -/
theorem everyStepCompletes : Obligations.EveryStepCompletes := fun s hwf h =>
  ⟨_, exec_of_enabled s.nextRow { s with call := none } hwf (State.enabled_nextRow h)⟩

/-! ### Where no event can be taken -/

/-- With no event that can be taken, the row is the reassembler's, quiescent or not. -/
theorem State.nextRow_of_no_event {s : State} (hcall : s.call = none)
    (hno : ∀ e, s.inq.head? = some e → s.eventFits e = false) : s.nextRow = s.rsmRow := by
  obtain hrow | ⟨-, e, rest, hinq, hfits, -⟩ := State.nextRow_eq_rsmRow_or_eventRow hcall
  · exact hrow
  · exact absurd hfits (ne_true_of_eq_false (hno e (by rw [hinq, List.head?_cons])))

theorem State.no_event_of_nil {s : State} (h : s.inq = []) : ∀ e, s.inq.head? = some e → s.eventFits e = false :=
  fun _ he => by simp [h] at he

theorem State.no_event_of_cons {s : State} {e : Event} {rest : List Event} (h : s.inq = e :: rest)
    (hfits : s.eventFits e = false) : ∀ x, s.inq.head? = some x → s.eventFits x = false := by
  intro x hx
  rw [h, List.head?_cons, Option.some.injEq] at hx
  exact hx ▸ hfits

theorem step_of_no_event {s : State} (hcall : s.call = none)
    (hno : ∀ e, s.inq.head? = some e → s.eventFits e = false) : step s = exec s.rsmRow s := by
  rw [step_of_no_call s hcall, State.nextRow_of_no_event hcall hno]

/-- Settles O39: the reassembler's view reads `State.rsmRow`, and the queue and the call are looked at in turn. -/
theorem stepRunsTheDecodedRow : Obligations.StepRunsTheDecodedRow := by
  intro s i h
  obtain rfl : s.rsmRow = i := Except.ok.inj h
  refine ⟨step_of_not_quiescent, fun hcall hinq => step_of_no_event hcall (State.no_event_of_nil hinq),
    fun e rest => step_takes_head, fun e rest hcall _ hinq hfits => step_of_no_event hcall
      (State.no_event_of_cons hinq hfits), fun k hk => ?_⟩
  rw [step, State.nextRow_of_call hk]

/-- Where RSM is quiescent and no event can be taken, the step is a wait and changes nothing
(41_reassembler.md R87, R88). -/
theorem step_self {s : State} (hwf : s.cfg.wf = true) (hcall : s.call = none) (hq : s.quiescent)
    (hno : ∀ e, s.inq.head? = some e → s.eventFits e = false) : step s = .next s := by
  rw [step_of_no_event hcall hno, exec_of_enabled _ s hwf s.enabled_rsmRow]
  rcases s.quiescent_iff_rsmRow.1 hq with hrow | hrow <;> rw [hrow] <;> rfl

/-- A step that changes nothing may be repeated. -/
theorem runSteps_self {s : State} (h : step s = .next s) (k : Nat) : runSteps k s = .next s := by
  induction k with
  | zero => rfl
  | succ k ih => rw [runSteps_succ h, ih]

/-! ### After reset -/

theorem State.final_resetWith (c : Config) : (State.resetWith c).final := State.final_of_cleared rfl rfl rfl rfl rfl

/-- Settles O36: the state after reset is final, and with an event issued the event is at the head of the queue. -/
theorem afterResetAnEventIsTaken : Obligations.AfterResetAnEventIsTaken := by
  intro c hwf
  obtain ⟨-, -, hq, -⟩ := State.final_resetWith c
  refine ⟨State.final_resetWith c, step_self hwf rfl hq (State.no_event_of_nil rfl), fun e hfits => ?_⟩
  have hstep : step ((State.resetWith c).issue e) = exec (eventRow e) ((State.resetWith c).issue e) :=
    step_takes_head rfl hq rfl hfits
  exact ⟨hstep, _, hstep.trans (exec_eventRow hwf rfl hq hfits), State.perform_inq _ e⟩

/-! ### The status read-out -/

theorem State.stMode_eq_iff (s : State) : (s.stMode = 0 ↔ s.mode = .awaitHeader) ∧ (s.stMode = 1 ↔ s.mode = .resync) ∧
    (s.stMode = 2 ↔ s.mode = .awaitPayload) ∧ s.stMode ≠ 3 := by
  unfold State.stMode
  cases s.mode <;> decide

/-- A value of `8 * n` bits is read whole (10_state.md R18). -/
theorem toNat_ofNat_of_lt {n v : Nat} (h : v < 256 ^ n) : (BitVec.ofNat (8 * n) v).toNat = v := by
  rw [BitVec.toNat_ofNat, two_pow_eight_mul, Nat.mod_eq_of_lt h]

/-- Settles O37: the three registers are read whole because they hold values of their widths. -/
theorem statusReadOut : Obligations.StatusReadOut := by
  refine ⟨fun c _ => ⟨rfl, rfl, rfl, rfl, rfl, ?_⟩, fun s hfit => ?_⟩
  · obtain ⟨-, -, hq, -⟩ := State.final_resetWith c
    exact decide_eq_true hq
  · obtain ⟨htag, hstatus, hlength⟩ := (Header.wellTyped_iff s.cfg s.pendingHeader).1 hfit
    obtain ⟨h0, h1, h2, h3⟩ := s.stMode_eq_iff
    exact ⟨h0, h1, h2, h3, toNat_ofNat_of_lt htag, toNat_ofNat_of_lt hstatus, toNat_ofNat_of_lt hlength, rfl,
      decide_eq_true_iff⟩

end Sys2Proof.Machine
end

section
/-! The proofs about the states that rest (00_scope.md R9, 70_reset_and_hazards.md R149): a final or blocked state stays
as it is, and only CONNECTED, DISCONNECTED and RESET leave the capacity deadlock. -/

namespace Sys2Proof.Machine

/-- The step of a state at its end changes nothing. -/
theorem step_of_final {s : State} (hwf : s.cfg.wf = true) (h : s.final) : step s = .next s := by
  obtain ⟨hcall, hinq, hq, -⟩ := h
  exact step_self hwf hcall hq (State.no_event_of_nil hinq)

/-- Under back-pressure the step changes nothing. -/
theorem step_of_blocked {s : State} (hwf : s.cfg.wf = true) (h : s.blocked) : step s = .next s := by
  obtain ⟨hcall, hq, e, hhead, hfits⟩ := h
  refine step_self hwf hcall hq fun x hx => ?_
  rw [← Option.some.inj (hhead.symm.trans hx)]
  exact hfits

/-- A blocked state has an event queued, so the run is not at its end. -/
theorem State.not_final_of_blocked {s : State} (h : s.blocked) : ¬ s.final := by
  obtain ⟨-, -, e, hhead, -⟩ := h
  rintro ⟨-, hinq, -⟩
  simp [hinq] at hhead

theorem State.not_deadlocked_of_awaitHeader {s : State} (hm : s.mode = .awaitHeader) : ¬ s.deadlocked :=
  fun ⟨hpayload, _⟩ => Mode.noConfusion (hm.symm.trans hpayload)

/-! ### What leaves the capacity deadlock and what does not -/

/-- `t` is as deadlocked as `s`: the same header pending, and no frame emitted in between. -/
def State.StaysDeadlocked (s t : State) : Prop :=
  t.cur = s.cur ∧ t.deadlocked ∧ t.Inv3 ∧ framesOf t.out = framesOf s.out

/-- An item that is no frame adds no frame. -/
theorem framesOf_emit {s : State} {x : Item} (h : frameOfItem x = none) :
    framesOf (s.emit [x]).out = framesOf s.out := by
  simp [framesOf, h]

section

variable {s : State} (h3 : s.Inv3) (hd : s.deadlocked)

include h3 hd

/-- In the deadlock the row that applies is the wait for payload. -/
theorem State.rsmRow_of_deadlocked : s.rsmRow = .payloadWait :=
  (State.eq_rsmRow_of_enabled (i := .payloadWait) rfl (State.payloadWait_of_deadlocked h3 hd)).symm

/-- An event's rule that does not clear the connection leaves it deadlocked: a chunk that fits does not help. -/
theorem State.perform_staysDeadlocked {e : Event} (hfits : s.eventFits e = true) (hc : e ≠ .connected)
    (hdis : e ≠ .disconnected) : s.StaysDeadlocked (s.perform e) := by
  cases e
  case deliver chunk => exact ⟨rfl, hd, Memory.append_wf s.cfg s.buf chunk hfits, rfl⟩
  case connError | srcError => exact ⟨rfl, hd, h3, framesOf_emit rfl⟩
  case connected => exact absurd rfl hc
  case disconnected => exact absurd rfl hdis

/-- So does whatever a step runs, if it is none of the three clears. -/
theorem State.nextRow_staysDeadlocked (hc : s.nextRow ≠ .connected) (hdis : s.nextRow ≠ .disconnected)
    (hr : s.nextRow ≠ .reset) : s.StaysDeadlocked (State.effect { s with call := none } s.nextRow) := by
  have hself : s.StaysDeadlocked s := ⟨rfl, hd, h3, rfl⟩
  cases hcall : s.call with
  | some k =>
    rw [State.nextRow_of_call hcall] at hr ⊢
    cases k
    case reset => exact absurd rfl hr
    all_goals exact hself
  | none =>
    rw [s.call_none_eq hcall]
    obtain hrow | ⟨-, e, rest, hinq, hfits, hrow⟩ := State.nextRow_eq_rsmRow_or_eventRow hcall
    · rw [hrow, State.rsmRow_of_deadlocked h3 hd]
      exact hself
    · rw [hrow] at hc hdis ⊢
      rw [s.effect_eventRow]
      exact State.perform_staysDeadlocked (s := s.dequeue) h3 hd hfits (fun he => hc (he ▸ rfl))
        fun he => hdis (he ▸ rfl)

/-- Where no event can be taken the deadlock has no step but the wait. -/
theorem State.not_takes_of_deadlocked (hcall : s.call = none)
    (hno : ∀ e, s.inq.head? = some e → s.eventFits e = false) (t : State) : ¬ s.takes t := fun ⟨_, hwait, _⟩ =>
  hwait ((State.nextRow_of_no_event hcall hno).trans (State.rsmRow_of_deadlocked h3 hd))

end

/-- CONNECTED and DISCONNECTED are taken in any quiescent state, and leave nothing buffered and nothing pending
(60_exceptions.md R125, R126). -/
theorem exists_step_of_lifecycle {s : State} {e : Event} {rest : List Event} (hwf : s.cfg.wf = true)
    (hcall : s.call = none) (hq : s.quiescent) (he : e = .connected ∨ e = .disconnected) (hinq : s.inq = e :: rest) :
    ∃ t, step s = .next t ∧ t.buf = [] ∧ t.mode = .awaitHeader ∧ ¬ t.deadlocked ∧ t.inq = rest := by
  have hfits : s.eventFits e = true := by rcases he with rfl | rfl <;> rfl
  refine ⟨_, (step_takes_head hcall hq hinq hfits).trans (exec_eventRow hwf hinq hq hfits), ?_⟩
  have hm : (State.perform { s with inq := rest } e).mode = .awaitHeader := by rcases he with rfl | rfl <;> rfl
  exact ⟨by rcases he with rfl | rfl <;> rfl, hm, State.not_deadlocked_of_awaitHeader hm, State.perform_inq _ e⟩

/-- RESET acts in any state and leaves nothing buffered, nothing pending and nothing queued
(70_reset_and_hazards.md R140). -/
theorem exists_step_of_reset {s : State} (hwf : s.cfg.wf = true) :
    ∃ t, step (s.request .reset) = .next t ∧ t.buf = [] ∧ t.mode = .awaitHeader ∧ ¬ t.deadlocked ∧ t.inq = [] :=
  ⟨_, resetActsAtAnyTime { s with call := none } hwf, rfl, rfl, State.not_deadlocked_of_awaitHeader rfl, rfl⟩

/-- Settles O57: final and blocked states step to themselves; the deadlock waits for payload, and each row that a step
can run either keeps it or clears the connection. -/
theorem waitingStatesRest : Obligations.WaitingStatesRest := by
  refine ⟨fun s k hwf h => runSteps_self (step_of_final hwf h) k,
    fun s k hwf h => ⟨runSteps_self (step_of_blocked hwf h) k, State.not_final_of_blocked h⟩, fun s hwf h3 hd => ?_⟩
  have hwait := State.payloadWait_of_deadlocked h3 hd
  refine ⟨hwait, fun ⟨_, _, _, hlive⟩ => hlive hd, fun hcall hno => ?_, fun t ht hc hdis hr => ?_,
    fun e rest hcall he hinq => exists_step_of_lifecycle hwf hcall (.inr hwait) he hinq, exists_step_of_reset hwf⟩
  · exact ⟨step_self hwf hcall (.inr hwait) hno, State.not_takes_of_deadlocked h3 hd hcall hno⟩
  · obtain ⟨-, -, rfl⟩ := (exec_eq_next_iff _ _ t).1 ht
    exact State.nextRow_staysDeadlocked h3 hd hc hdis hr

end Sys2Proof.Machine
end

section
/-! The proof that a placed table word is what the next step runs (30_encoding.md R65): said once for each view that the
table's words are decoded in. -/

namespace Sys2Proof.Machine

/-! ### What a table word is decoded in -/

theorem tableInstr_eq_some_iff (c : Config) (nbits w : Nat) (i : Instr) : tableInstr c nbits w = some i ↔
    ∃ v, tableView c nbits (tableBytes nbits w) = some v ∧ decode c v (tableBytes nbits w) = .ok i := by
  unfold tableInstr
  cases tableView c nbits (tableBytes nbits w) with
  | none => simp
  | some v => cases hdec : decode c v (tableBytes nbits w) <;> simp [hdec, Except.toOption]

/-- The views of the table's words, and the one byte of a chunk. -/
theorem tableView_cases {c : Config} {nbits : Nat} {bytes : List Byte} {v : View}
    (h : tableView c nbits bytes = some v) :
    v = .resetPin ∨ v = .port ∨ (v = .chunk ∧ nbits = 8) ∨ v = .rsm .resync 0 ∨ v = .rsm .awaitHeader 0 ∨
      v = .frame ∨ v = .codec .encReqText := by
  unfold tableView at h
  split_ifs at h with _ _ hbytes hone <;> obtain rfl := Option.some.inj h
  · simp
  · simp
  · have h8 : nbits = 8 := by omega
    simp [h8]
  all_goals simp

/-- ENC_REQ_TEXT's view reads an ENC_REQ_TEXT. -/
theorem exists_encReqText_of_decode {c : Config} {s : List Byte} {i : Instr}
    (h : decode c (.codec .encReqText) s = .ok i) : ∃ t st x, i = .encReqText t st x := by
  change decodeReqText c s = .ok i at h
  unfold decodeReqText at h
  split at h
  · cases h
  · dsimp only at h
    split_ifs at h
    cases h
    exact ⟨_, _, _, rfl⟩

/-! ### What is run once it is placed -/

/-- Placed, the operation is what the next step runs, its call taken off. -/
def State.PlacedRuns (s : State) (i : Instr) (bytes : List Byte) : Prop :=
  step (s.place i bytes) = exec i { s.place i bytes with call := none }

/-- Where the placed state asks for nothing from outside, it is enough that it steps by the operation. -/
theorem State.placedRuns_of_step {s u : State} {i : Instr} {bytes : List Byte} (hplace : s.place i bytes = u)
    (hcall : u.call = none) (hstep : step u = exec i u) : s.PlacedRuns i bytes := by
  rw [State.PlacedRuns, hplace, u.call_none_eq hcall, hstep]

/-- A transition that is enabled is what the step runs, whatever is queued. -/
theorem step_of_transition {u : State} {i : Instr} (hcall : u.call = none) (hrow : isRsmRow i = true)
    (hen : u.enabled i) (hhdr : i ≠ .hdrWait) (hpay : i ≠ .payloadWait) : step u = exec i u := by
  have hi := State.eq_rsmRow_of_enabled hrow hen
  have hq : ¬ u.quiescent := fun hq => by
    rcases u.quiescent_iff_rsmRow.1 hq with h | h
    · exact hhdr (hi.trans h)
    · exact hpay (hi.trans h)
  rw [step_of_not_quiescent hcall hq, ← hi]

section

variable {s : State} {bytes : List Byte} {i : Instr}

theorem State.placedRuns_callRow (k : Call) : s.PlacedRuns (callRow k) bytes := by
  have hplace : s.place (callRow k) bytes = s.request k := by cases k <;> rfl
  rw [State.PlacedRuns, hplace, step, State.nextRow_of_call (s.request_call k)]

/-- An event is placed at the head of the queue of a quiescent state; it must fit the empty buffer. -/
theorem State.placedRuns_eventRow {e : Event} (hfits : (s.withEvent e).eventFits e = true) :
    s.PlacedRuns (eventRow e) bytes := by
  have hplace : s.place (eventRow e) bytes = s.withEvent e := by cases e <;> rfl
  have hq : (s.withEvent e).quiescent := .inl ⟨rfl, two_pos.trans_le (two_le_headerSize s.cfg)⟩
  exact State.placedRuns_of_step hplace rfl (step_takes_head rfl hq rfl hfits)

/-- One byte fits the empty buffer, whose capacity is at least a header's (20_memory.md R35). -/
theorem State.eventFits_of_one_byte (hwf : s.cfg.wf = true) (hlen : bytes.length = 1) :
    (s.withEvent (.deliver bytes)).eventFits (.deliver bytes) = true := by
  simp only [Config.wf, Bool.and_eq_true] at hwf
  obtain ⟨-, hcap⟩ := hwf
  refine withinCapacity_mono s.cfg ?_ hcap
  have := two_le_headerSize s.cfg
  change 0 + bytes.length ≤ _
  omega

theorem State.placedRuns_resync (h : decode s.cfg (.rsm .resync 0) bytes = .ok i) : s.PlacedRuns i bytes := by
  let u := s.withBuffer true bytes
  have hm : u.mode = .resync := rfl
  obtain rfl : u.rsmRow = i := Except.ok.inj h
  rw [State.rsmRow_of_resync hm]
  split_ifs with hmark hlt
  · exact State.placedRuns_of_step rfl rfl (step_of_transition (u := u) rfl rfl ⟨hm, hmark⟩ (by simp) (by simp))
  · exact State.placedRuns_of_step rfl rfl
      (step_of_transition (u := s.withBuffer true []) rfl rfl ⟨rfl, two_pos⟩ (by simp) (by simp))
  · exact State.placedRuns_of_step rfl rfl (step_of_transition (u := u) rfl rfl ⟨hm, Nat.le_of_not_lt hlt,
      Bool.eq_false_of_not_eq_true hmark, Memory.readByte_zero_one (Nat.le_of_not_lt hlt)⟩ (by simp) (by simp))

/-- HDR_WAIT is placed with the queue emptied; the other rows have a whole candidate and go before any event. -/
theorem State.placedRuns_awaitHeader (h : decode s.cfg (.rsm .awaitHeader 0) bytes = .ok i) : s.PlacedRuns i bytes := by
  let u := s.withBuffer false bytes
  have hm : u.mode = .awaitHeader := rfl
  obtain rfl : u.rsmRow = i := Except.ok.inj h
  by_cases hlt : u.buf.length < u.headerSize
  · have hrow : u.rsmRow = .hdrWait := (State.eq_rsmRow_of_enabled (i := .hdrWait) rfl ⟨hm, hlt⟩).symm
    refine State.placedRuns_of_step (u := { u with inq := [] }) ?_ rfl
      (step_of_no_event rfl (State.no_event_of_nil rfl))
    rw [hrow]
    rfl
  · have hq : ¬ u.quiescent := fun hq => hlt ((State.quiescent_iff_of_awaitHeader hm).1 hq)
    refine State.placedRuns_of_step (u := u) ?_ rfl (step_of_not_quiescent rfl hq)
    rw [State.rsmRow_of_awaitHeader hm, if_neg hlt]
    split_ifs <;> rfl

/-- A frame row is placed as the pending header of a complete frame. -/
theorem State.place_kindRow {t st n : Nat} (ht : t ≠ 0) :
    s.place (kindRow s.cfg t st n) bytes = s.withFrame t st n := by
  apply kindRow_cases (P := fun i => s.place i bytes = s.withFrame t st n)
  case null => exact fun h => absurd h ht
  case mismatch | unknown => exact fun _ => rfl
  all_goals rintro rfl
  case getSize | clearData => exact fun _ => rfl
  all_goals rfl

/-- A frame row runs as DISPATCH of the placed frame, NULL_HEADER as HDR_NULL of the placed bytes. -/
theorem State.placedRuns_frame (hwf : s.cfg.wf = true) (h : decode s.cfg .frame bytes = .ok i) :
    s.PlacedRuns i bytes := by
  obtain ⟨hlen, hmark, rfl⟩ := (decode_frame_eq_ok_iff s.cfg bytes i).1 h
  set hdr := headerAt s.cfg bytes
  by_cases ht : hdr.typeTag = 0
  · let u := s.withBuffer false bytes
    have hguard : u.hdrNullGuard hdr.status hdr.length := by
      refine ⟨⟨rfl, hlen, hmark⟩, ?_⟩
      rw [u.headHeader_eq]
      exact ⟨ht, rfl, rfl⟩
    rw [ht, kindRow_zero]
    refine State.placedRuns_of_step (u := u) rfl rfl ?_
    rw [step_of_transition (i := .hdrNull hdr.status hdr.length) rfl rfl hguard (by simp) (by simp)]
    exact (exec_of_enabled (.hdrNull hdr.status hdr.length) u hwf hguard).trans
      (exec_of_enabled (.nullHeader hdr.status hdr.length) u hwf hguard).symm
  · let u := s.withFrame hdr.typeTag hdr.status hdr.length
    have hguard : u.dispatchGuard :=
      ⟨u.mode_eq_awaitPayload_iff.2 ht, List.length_replicate.ge⟩
    refine State.placedRuns_of_step (u := u) (State.place_kindRow ht) rfl ?_
    rw [step_of_transition (i := .dispatch) rfl rfl hguard (by simp) (by simp)]
    exact exec_dispatch_eq (s := u) hwf hguard

end

/-- Settles O40: in whichever view the word was decoded, its operation runs once it is placed. -/
theorem placedWordIsRunNext : Obligations.PlacedWordIsRunNext := by
  intro s nbits w i hwf h
  have hplace : s.withFetchWord nbits w = s.place i (tableBytes nbits w) := by
    rw [State.withFetchWord, State.placeWord, h]
  rw [hplace]
  obtain ⟨v, hv, hdec⟩ := (tableInstr_eq_some_iff s.cfg nbits w i).1 h
  rcases tableView_cases hv with rfl | rfl | ⟨rfl, rfl⟩ | rfl | rfl | rfl | rfl
  · obtain ⟨-, rfl⟩ := (decode_resetPin_eq_ok_iff _ _ i).1 hdec
    exact State.placedRuns_callRow .reset
  · rcases (decode_port_eq_ok_iff _ _ i).1 hdec with ⟨-, rfl⟩ | ⟨-, rfl⟩ | ⟨-, rfl⟩ | ⟨-, rfl⟩
    · exact State.placedRuns_eventRow (e := .connected) rfl
    · exact State.placedRuns_eventRow (e := .connError) rfl
    · exact State.placedRuns_eventRow (e := .disconnected) rfl
    · exact State.placedRuns_eventRow (e := .srcError) rfl
  · obtain rfl : .deliver (tableBytes 8 w) = i := Except.ok.inj hdec
    exact State.placedRuns_eventRow (e := .deliver (tableBytes 8 w))
      (State.eventFits_of_one_byte hwf (beBytes_length 1 w))
  · exact State.placedRuns_resync hdec
  · exact State.placedRuns_awaitHeader hdec
  · exact State.placedRuns_frame hwf hdec
  · obtain ⟨t, st, x, rfl⟩ := exists_encReqText_of_decode hdec
    exact State.placedRuns_callRow (.encReqText t st x)

end Sys2Proof.Machine
end
